-- ==== Sys2Proof/Word.lean ====
section
/-! DEFINITION. The word types of the LC-3 core (00_scope R6, R9). -/

namespace Sys2Proof

/-- The value of a register, a memory cell, an address or an instruction: 16 bits (00_scope R6). -/
abbrev Word := BitVec 16

/-- A console character: an 8-bit value (00_scope R13). -/
abbrev Byte := BitVec 8

end Sys2Proof
end

