-- ==== Sys2Proof/Config.lean ====
section
/-! DEFINITION. The parameters of the hardware (00_scope R6, R7): the fixed addresses and vectors, and the values
the spec decides. The open ones (REG_RESET, MEM_RESET, IN_PROMPT) are launch arguments of the machine, see
`Machine/State.lean`. -/

namespace Sys2Proof.Config

/-- Number of memory cells, 2^16 (00_scope R6). -/
def memCells : Nat := 65536

/-- START_ADDRESS, the value of `pc` after reset (00_scope R7, 92_eei_decisions D8). -/
def startAddress : Word := 0x3000#16

/-- KBSR, the keyboard status address (00_scope R6). -/
def kbsr : Word := 0xFE00#16

/-- KBDR, the keyboard data address (00_scope R6). -/
def kbdr : Word := 0xFE02#16

/-- KBSR_READY, what KBSR becomes when a key is pending (00_scope R7, D10). -/
def kbsrReady : Word := 0x8000#16

/-- What a memory cell that nothing has loaded or stored reads as.
DESIGN CHOICE, unsafe (log 3): the spec leaves MEM_RESET open (D7); a memory with other contents is another list. -/
def unlistedCell : Word := 0#16

/-- TRAP_GETC (00_scope R6, 30_encoding R70). -/
def trapGetc : Byte := 0x20#8
/-- TRAP_OUT. -/
def trapOut : Byte := 0x21#8
/-- TRAP_PUTS. -/
def trapPuts : Byte := 0x22#8
/-- TRAP_IN. -/
def trapIn : Byte := 0x23#8
/-- TRAP_PUTSP. -/
def trapPutsp : Byte := 0x24#8
/-- TRAP_HALT. -/
def trapHalt : Byte := 0x25#8

/-- The characters that join the console input at the n-th coming console operation, where the model leaves them free:
no value of it is known, so what is proved holds for every input that never ends (10_state R37; log 6). -/
opaque freeBatch : Nat → List Byte

end Sys2Proof.Config
end

