-- ==== Sys2Proof/Syntax.lean ====
section
/-! DEFINITION. The instructions: one constructor per row of spec/opcode_table.json, with the fields of 30_encoding
R63. Immediates and offsets are kept as the encoded field; `Machine/Operands.lean` extends them. -/

namespace Sys2Proof

/-- The eight general registers (10_state R20). -/
inductive Reg where
  | r0 | r1 | r2 | r3 | r4 | r5 | r6 | r7
  deriving DecidableEq, Repr

/-- The instructions of the LC-3 core (30_encoding R62, R64, R70). The six `trapNone…` constructors are the six
table rows that share the 250 trap vectors without a routine; each holds the whole trapvect8 (log 24). -/
inductive Instr where
  /-- BR, `0000 n z p ooooooooo` (R110). -/
  | br (n z p : Bool) (off : BitVec 9)
  /-- ADD register form, `0001 ddd aaa 0 xx ccc` (R100). -/
  | addReg (dr sr1 sr2 : Reg)
  /-- ADD immediate form, `0001 ddd aaa 1 iiiii` (R101). -/
  | addImm (dr sr1 : Reg) (imm : BitVec 5)
  /-- LD, `0010 ddd ooooooooo` (R120). -/
  | ld (dr : Reg) (off : BitVec 9)
  /-- ST, `0011 sss ooooooooo` (R124). -/
  | st (sr : Reg) (off : BitVec 9)
  /-- JSR, `0100 1 ooooooooooo` (R112). -/
  | jsr (off : BitVec 11)
  /-- JSRR, `0100 0 xx bbb xxxxxx` (R113). -/
  | jsrr (base : Reg)
  /-- AND register form, `0101 ddd aaa 0 xx ccc` (R102). -/
  | andReg (dr sr1 sr2 : Reg)
  /-- AND immediate form, `0101 ddd aaa 1 iiiii` (R103). -/
  | andImm (dr sr1 : Reg) (imm : BitVec 5)
  /-- LDR, `0110 ddd bbb oooooo` (R122). -/
  | ldr (dr base : Reg) (off : BitVec 6)
  /-- STR, `0111 sss bbb oooooo` (R126). -/
  | str (sr base : Reg) (off : BitVec 6)
  /-- RTI, `1000 xxxxxxxxxxxx` (R150); the ignored bits are kept because the cause records the word (R152). -/
  | rti (low : BitVec 12)
  /-- NOT, `1001 ddd aaa xxxxxx` (R104). -/
  | not (dr sr : Reg)
  /-- LDI, `1010 ddd ooooooooo` (R121). -/
  | ldi (dr : Reg) (off : BitVec 9)
  /-- STI, `1011 sss ooooooooo` (R125). -/
  | sti (sr : Reg) (off : BitVec 9)
  /-- JMP, `1100 xxx bbb xxxxxx`; RET is JMP R7 (R111). -/
  | jmp (base : Reg)
  /-- RES, `1101 xxxxxxxxxxxx` (R151); the ignored bits are kept because the cause records the word (R152). -/
  | res (low : BitVec 12)
  /-- LEA, `1110 ddd ooooooooo` (R123). -/
  | lea (dr : Reg) (off : BitVec 9)
  /-- TRAP x20, GETC (R131). -/
  | trapGetc
  /-- TRAP x21, OUT (R132). -/
  | trapOut
  /-- TRAP x22, PUTS (R133). -/
  | trapPuts
  /-- TRAP x23, IN (R134). -/
  | trapIn
  /-- TRAP x24, PUTSP (R135). -/
  | trapPutsp
  /-- TRAP x25, HALT (R136). -/
  | trapHalt
  /-- TRAP with no routine, vectors 0x80 to 0xFF (R137). -/
  | trapNone80 (vect : Byte)
  /-- TRAP with no routine, vectors 0x40 to 0x7F (R137). -/
  | trapNone40 (vect : Byte)
  /-- TRAP with no routine, vectors 0x00 to 0x1F (R137). -/
  | trapNone00 (vect : Byte)
  /-- TRAP with no routine, vectors 0x30 to 0x3F (R137). -/
  | trapNone30 (vect : Byte)
  /-- TRAP with no routine, vectors 0x28 to 0x2F (R137). -/
  | trapNone28 (vect : Byte)
  /-- TRAP with no routine, vectors 0x26 and 0x27 (R137). -/
  | trapNone26 (vect : Byte)
  deriving DecidableEq, Repr

end Sys2Proof
end

