-- ==== Sys2Proof/WellFormed.lean ====
section
/-! DEFINITION. Which terms of `Instr` stand for an instruction. Every field but one is bounded by its type; the
vector of a TRAP with no routine must lie in the range of its table row (30_encoding R70, R71). -/

namespace Sys2Proof

/-- `i` stands for an instruction: its trap vector, if it holds one, lies in its row's range (30_encoding R71). -/
def Instr.wellFormed : Instr → Bool
  | .trapNone80 v => decide (0x80 ≤ v.toNat)
  | .trapNone40 v => decide (0x40 ≤ v.toNat ∧ v.toNat ≤ 0x7F)
  | .trapNone00 v => decide (v.toNat ≤ 0x1F)
  | .trapNone30 v => decide (0x30 ≤ v.toNat ∧ v.toNat ≤ 0x3F)
  | .trapNone28 v => decide (0x28 ≤ v.toNat ∧ v.toNat ≤ 0x2F)
  | .trapNone26 v => decide (0x26 ≤ v.toNat ∧ v.toNat ≤ 0x27)
  | .br _ _ _ _ | .addReg _ _ _ | .addImm _ _ _ | .ld _ _ | .st _ _ | .jsr _ | .jsrr _ | .andReg _ _ _
  | .andImm _ _ _ | .ldr _ _ _ | .str _ _ _ | .rti _ | .not _ _ | .ldi _ _ | .sti _ _ | .jmp _ | .res _
  | .lea _ _ | .trapGetc | .trapOut | .trapPuts | .trapIn | .trapPutsp | .trapHalt => true

end Sys2Proof
end

