-- ==== Sys2Proof/Decode.lean ====
section
/-! DEFINITION. The decoder, total on the 65,536 words (30_encoding R71: there is nothing to reject; RTI and RES
are decoded and stop the machine when they run, R68); then the encoder, the rows of the opcode table, and the
bits each row reads. Opcode numbers and field positions are 30_encoding R62 and R63 (log 11). -/

namespace Sys2Proof

/-! ### Fields (30_encoding R61, R63) -/

/-- A 3-bit register selector names the register of that number (30_encoding R63, R66). -/
def Reg.ofBits (b : BitVec 3) : Reg :=
  match b.toNat with
  | 0 => .r0
  | 1 => .r1
  | 2 => .r2
  | 3 => .r3
  | 4 => .r4
  | 5 => .r5
  | 6 => .r6
  | _ => .r7

/-- The 3-bit selector of a register. -/
def Reg.bits : Reg → BitVec 3
  | .r0 => 0#3
  | .r1 => 1#3
  | .r2 => 2#3
  | .r3 => 3#3
  | .r4 => 4#3
  | .r5 => 5#3
  | .r6 => 6#3
  | .r7 => 7#3

/-- The sixteen values of the opcode field, by mnemonic (30_encoding R62). -/
inductive Opcode where
  | br | add | ld | st | jsr | and | ldr | str | rti | not | ldi | sti | jmp | res | lea | trap
  deriving DecidableEq, Repr

/-- The opcode map of 30_encoding R62 (D1, log 11). -/
def Opcode.ofBits (b : BitVec 4) : Opcode :=
  match b.toNat with
  | 0 => .br
  | 1 => .add
  | 2 => .ld
  | 3 => .st
  | 4 => .jsr
  | 5 => .and
  | 6 => .ldr
  | 7 => .str
  | 8 => .rti
  | 9 => .not
  | 10 => .ldi
  | 11 => .sti
  | 12 => .jmp
  | 13 => .res
  | 14 => .lea
  | _ => .trap

/-- The opcode, `instr[15:12]` (30_encoding R61). -/
def opcodeBits (w : Word) : BitVec 4 := w.extractLsb' 12 4

/-- DR, or the SR of a store: `instr[11:9]` (30_encoding R63). -/
def fieldDR (w : Word) : Reg := Reg.ofBits (w.extractLsb' 9 3)

/-- SR1, the SR of NOT, or BaseR: `instr[8:6]` (30_encoding R63). -/
def fieldBase (w : Word) : Reg := Reg.ofBits (w.extractLsb' 6 3)

/-- SR2, `instr[2:0]` (30_encoding R63). -/
def fieldSR2 (w : Word) : Reg := Reg.ofBits (w.extractLsb' 0 3)

/-- imm5, `instr[4:0]` (30_encoding R63). -/
def fieldImm5 (w : Word) : BitVec 5 := w.extractLsb' 0 5

/-- offset6, `instr[5:0]` (30_encoding R63). -/
def fieldOffset6 (w : Word) : BitVec 6 := w.extractLsb' 0 6

/-- PCoffset9, `instr[8:0]` (30_encoding R63). -/
def fieldPCoffset9 (w : Word) : BitVec 9 := w.extractLsb' 0 9

/-- PCoffset11, `instr[10:0]` (30_encoding R63). -/
def fieldPCoffset11 (w : Word) : BitVec 11 := w.extractLsb' 0 11

/-- trapvect8, `instr[7:0]` (30_encoding R63). -/
def fieldTrapvect8 (w : Word) : Byte := w.extractLsb' 0 8

/-- The low 12 bits, which RTI and RES ignore (30_encoding R67). -/
def fieldLow12 (w : Word) : BitVec 12 := w.extractLsb' 0 12

/-! ### The decoder (40_step R91, 30_encoding R70) -/

/-- The instruction of a TRAP with vector `v` (30_encoding R70); a vector with no routine goes to the one of the
six table rows whose range holds it (R137). -/
def decodeTrap (v : Byte) : Instr :=
  if v = Config.trapGetc then .trapGetc
  else if v = Config.trapOut then .trapOut
  else if v = Config.trapPuts then .trapPuts
  else if v = Config.trapIn then .trapIn
  else if v = Config.trapPutsp then .trapPutsp
  else if v = Config.trapHalt then .trapHalt
  else if 0x80 ≤ v.toNat then .trapNone80 v
  else if 0x40 ≤ v.toNat then .trapNone40 v
  else if v.toNat ≤ 0x1F then .trapNone00 v
  else if 0x30 ≤ v.toNat then .trapNone30 v
  else if 0x28 ≤ v.toNat then .trapNone28 v
  else .trapNone26 v

/-- The instruction a word is: dispatch on the opcode, then on bit 5 (ADD, AND), bit 11 (JSR) or the trap vector
(40_step R91). Bits no field covers are not read (30_encoding R67, log 17). -/
def decode (w : Word) : Instr :=
  match Opcode.ofBits (opcodeBits w) with
  | .br => .br (w.getLsbD 11) (w.getLsbD 10) (w.getLsbD 9) (fieldPCoffset9 w)
  | .add =>
    if w.getLsbD 5 then .addImm (fieldDR w) (fieldBase w) (fieldImm5 w)
    else .addReg (fieldDR w) (fieldBase w) (fieldSR2 w)
  | .ld => .ld (fieldDR w) (fieldPCoffset9 w)
  | .st => .st (fieldDR w) (fieldPCoffset9 w)
  | .jsr => if w.getLsbD 11 then .jsr (fieldPCoffset11 w) else .jsrr (fieldBase w)
  | .and =>
    if w.getLsbD 5 then .andImm (fieldDR w) (fieldBase w) (fieldImm5 w)
    else .andReg (fieldDR w) (fieldBase w) (fieldSR2 w)
  | .ldr => .ldr (fieldDR w) (fieldBase w) (fieldOffset6 w)
  | .str => .str (fieldDR w) (fieldBase w) (fieldOffset6 w)
  | .rti => .rti (fieldLow12 w)
  | .not => .not (fieldDR w) (fieldBase w)
  | .ldi => .ldi (fieldDR w) (fieldPCoffset9 w)
  | .sti => .sti (fieldDR w) (fieldPCoffset9 w)
  | .jmp => .jmp (fieldBase w)
  | .res => .res (fieldLow12 w)
  | .lea => .lea (fieldDR w) (fieldPCoffset9 w)
  | .trap => decodeTrap (fieldTrapvect8 w)

/-- The host's view of the decoder: the table's bits of one word, refused only where they are more bits than an
instruction has (every instruction is exactly one 16-bit word, 30_encoding R60). -/
def decodeTableWord (nbits w : Nat) : Option Instr :=
  if nbits ≤ 16 ∧ w < 2 ^ 16 then some (decode (BitVec.ofNat 16 w)) else none

/-! ### The encoder (30_encoding R64) -/

/-- The word that holds field `f` with its bit 0 at bit `pos`, and 0 elsewhere (30_encoding R63: a field at
`[pos + n - 1 : pos]`). -/
def place {n : Nat} (pos : Nat) (f : BitVec n) : Word := f.setWidth 16 <<< pos

/-- The word of a TRAP with vector `v`; the ignored bits are written 0 (30_encoding R64, R80). -/
def encodeTrap (v : Byte) : Word := place 12 0xF#4 ||| place 0 v

/-- The word of an instruction, written from the formats of 30_encoding R64. Ignored bits are written as the
assembler writes them: 0, but 1 in NOT's [5:0] (R80, log 17). -/
def encode : Instr → Word
  | .br n z p off =>
    place 12 0x0#4 ||| place 11 (BitVec.ofBool n) ||| place 10 (BitVec.ofBool z) ||| place 9 (BitVec.ofBool p) |||
      place 0 off
  | .addReg dr sr1 sr2 => place 12 0x1#4 ||| place 9 dr.bits ||| place 6 sr1.bits ||| place 5 0#1 ||| place 0 sr2.bits
  | .addImm dr sr1 imm => place 12 0x1#4 ||| place 9 dr.bits ||| place 6 sr1.bits ||| place 5 1#1 ||| place 0 imm
  | .ld dr off => place 12 0x2#4 ||| place 9 dr.bits ||| place 0 off
  | .st sr off => place 12 0x3#4 ||| place 9 sr.bits ||| place 0 off
  | .jsr off => place 12 0x4#4 ||| place 11 1#1 ||| place 0 off
  | .jsrr base => place 12 0x4#4 ||| place 11 0#1 ||| place 6 base.bits
  | .andReg dr sr1 sr2 => place 12 0x5#4 ||| place 9 dr.bits ||| place 6 sr1.bits ||| place 5 0#1 ||| place 0 sr2.bits
  | .andImm dr sr1 imm => place 12 0x5#4 ||| place 9 dr.bits ||| place 6 sr1.bits ||| place 5 1#1 ||| place 0 imm
  | .ldr dr base off => place 12 0x6#4 ||| place 9 dr.bits ||| place 6 base.bits ||| place 0 off
  | .str sr base off => place 12 0x7#4 ||| place 9 sr.bits ||| place 6 base.bits ||| place 0 off
  | .rti low => place 12 0x8#4 ||| place 0 low
  | .not dr sr => place 12 0x9#4 ||| place 9 dr.bits ||| place 6 sr.bits ||| place 0 0x3F#6
  | .ldi dr off => place 12 0xA#4 ||| place 9 dr.bits ||| place 0 off
  | .sti sr off => place 12 0xB#4 ||| place 9 sr.bits ||| place 0 off
  | .jmp base => place 12 0xC#4 ||| place 6 base.bits
  | .res low => place 12 0xD#4 ||| place 0 low
  | .lea dr off => place 12 0xE#4 ||| place 9 dr.bits ||| place 0 off
  | .trapGetc => encodeTrap Config.trapGetc
  | .trapOut => encodeTrap Config.trapOut
  | .trapPuts => encodeTrap Config.trapPuts
  | .trapIn => encodeTrap Config.trapIn
  | .trapPutsp => encodeTrap Config.trapPutsp
  | .trapHalt => encodeTrap Config.trapHalt
  | .trapNone80 v => encodeTrap v
  | .trapNone40 v => encodeTrap v
  | .trapNone00 v => encodeTrap v
  | .trapNone30 v => encodeTrap v
  | .trapNone28 v => encodeTrap v
  | .trapNone26 v => encodeTrap v

/-! ### The opcode table (spec/opcode_table.json) -/

/-- One row of the opcode table: the words `w` with `w AND mask = pattern` are the row's. -/
structure TableRow where
  mnemonic : String
  mask : Word
  pattern : Word
  deriving DecidableEq, Repr

/-- The row covers the word. -/
def TableRow.covers (r : TableRow) (w : Word) : Bool := w &&& r.mask == r.pattern

/-- The row of an instruction, its mask and match copied from the table. -/
def Instr.row : Instr → TableRow
  | .br _ _ _ _ => ⟨"BR", 0xF000#16, 0x0000#16⟩
  | .addReg _ _ _ => ⟨"ADD", 0xF020#16, 0x1000#16⟩
  | .addImm _ _ _ => ⟨"ADD", 0xF020#16, 0x1020#16⟩
  | .ld _ _ => ⟨"LD", 0xF000#16, 0x2000#16⟩
  | .st _ _ => ⟨"ST", 0xF000#16, 0x3000#16⟩
  | .jsr _ => ⟨"JSR", 0xF800#16, 0x4800#16⟩
  | .jsrr _ => ⟨"JSRR", 0xF800#16, 0x4000#16⟩
  | .andReg _ _ _ => ⟨"AND", 0xF020#16, 0x5000#16⟩
  | .andImm _ _ _ => ⟨"AND", 0xF020#16, 0x5020#16⟩
  | .ldr _ _ _ => ⟨"LDR", 0xF000#16, 0x6000#16⟩
  | .str _ _ _ => ⟨"STR", 0xF000#16, 0x7000#16⟩
  | .rti _ => ⟨"RTI", 0xF000#16, 0x8000#16⟩
  | .not _ _ => ⟨"NOT", 0xF000#16, 0x9000#16⟩
  | .ldi _ _ => ⟨"LDI", 0xF000#16, 0xA000#16⟩
  | .sti _ _ => ⟨"STI", 0xF000#16, 0xB000#16⟩
  | .jmp _ => ⟨"JMP", 0xF000#16, 0xC000#16⟩
  | .res _ => ⟨"RES", 0xF000#16, 0xD000#16⟩
  | .lea _ _ => ⟨"LEA", 0xF000#16, 0xE000#16⟩
  | .trapGetc => ⟨"TRAP_GETC", 0xF0FF#16, 0xF020#16⟩
  | .trapOut => ⟨"TRAP_OUT", 0xF0FF#16, 0xF021#16⟩
  | .trapPuts => ⟨"TRAP_PUTS", 0xF0FF#16, 0xF022#16⟩
  | .trapIn => ⟨"TRAP_IN", 0xF0FF#16, 0xF023#16⟩
  | .trapPutsp => ⟨"TRAP_PUTSP", 0xF0FF#16, 0xF024#16⟩
  | .trapHalt => ⟨"TRAP_HALT", 0xF0FF#16, 0xF025#16⟩
  | .trapNone80 _ => ⟨"TRAP__no_routine", 0xF080#16, 0xF080#16⟩
  | .trapNone40 _ => ⟨"TRAP__no_routine", 0xF0C0#16, 0xF040#16⟩
  | .trapNone00 _ => ⟨"TRAP__no_routine", 0xF0E0#16, 0xF000#16⟩
  | .trapNone30 _ => ⟨"TRAP__no_routine", 0xF0F0#16, 0xF030#16⟩
  | .trapNone28 _ => ⟨"TRAP__no_routine", 0xF0F8#16, 0xF028#16⟩
  | .trapNone26 _ => ⟨"TRAP__no_routine", 0xF0FE#16, 0xF026#16⟩

/-- The thirty rows of the opcode table, in the table's order. -/
def opcodeTable : List TableRow :=
  [⟨"BR", 0xF000#16, 0x0000#16⟩, ⟨"ADD", 0xF020#16, 0x1000#16⟩, ⟨"ADD", 0xF020#16, 0x1020#16⟩,
    ⟨"LD", 0xF000#16, 0x2000#16⟩, ⟨"ST", 0xF000#16, 0x3000#16⟩, ⟨"JSR", 0xF800#16, 0x4800#16⟩,
    ⟨"JSRR", 0xF800#16, 0x4000#16⟩, ⟨"AND", 0xF020#16, 0x5000#16⟩, ⟨"AND", 0xF020#16, 0x5020#16⟩,
    ⟨"LDR", 0xF000#16, 0x6000#16⟩] ++
  [⟨"STR", 0xF000#16, 0x7000#16⟩, ⟨"RTI", 0xF000#16, 0x8000#16⟩, ⟨"NOT", 0xF000#16, 0x9000#16⟩,
    ⟨"LDI", 0xF000#16, 0xA000#16⟩, ⟨"STI", 0xF000#16, 0xB000#16⟩, ⟨"JMP", 0xF000#16, 0xC000#16⟩,
    ⟨"RES", 0xF000#16, 0xD000#16⟩, ⟨"LEA", 0xF000#16, 0xE000#16⟩, ⟨"TRAP_GETC", 0xF0FF#16, 0xF020#16⟩,
    ⟨"TRAP_OUT", 0xF0FF#16, 0xF021#16⟩] ++
  [⟨"TRAP_PUTS", 0xF0FF#16, 0xF022#16⟩, ⟨"TRAP_IN", 0xF0FF#16, 0xF023#16⟩,
    ⟨"TRAP_PUTSP", 0xF0FF#16, 0xF024#16⟩, ⟨"TRAP_HALT", 0xF0FF#16, 0xF025#16⟩,
    ⟨"TRAP__no_routine", 0xF080#16, 0xF080#16⟩, ⟨"TRAP__no_routine", 0xF0C0#16, 0xF040#16⟩,
    ⟨"TRAP__no_routine", 0xF0E0#16, 0xF000#16⟩, ⟨"TRAP__no_routine", 0xF0F0#16, 0xF030#16⟩,
    ⟨"TRAP__no_routine", 0xF0F8#16, 0xF028#16⟩, ⟨"TRAP__no_routine", 0xF0FE#16, 0xF026#16⟩]

/-- The bits of a word that some field of the instruction covers: every bit 30_encoding R64 does not mark `x`. -/
def Instr.fieldBits : Instr → Word
  | .br _ _ _ _ => 0xFFFF#16
  | .addReg _ _ _ => 0xFFE7#16
  | .addImm _ _ _ => 0xFFFF#16
  | .ld _ _ => 0xFFFF#16
  | .st _ _ => 0xFFFF#16
  | .jsr _ => 0xFFFF#16
  | .jsrr _ => 0xF9C0#16
  | .andReg _ _ _ => 0xFFE7#16
  | .andImm _ _ _ => 0xFFFF#16
  | .ldr _ _ _ => 0xFFFF#16
  | .str _ _ _ => 0xFFFF#16
  | .rti _ => 0xF000#16
  | .not _ _ => 0xFFC0#16
  | .ldi _ _ => 0xFFFF#16
  | .sti _ _ => 0xFFFF#16
  | .jmp _ => 0xF1C0#16
  | .res _ => 0xF000#16
  | .lea _ _ => 0xFFFF#16
  | .trapGetc | .trapOut | .trapPuts | .trapIn | .trapPutsp | .trapHalt => 0xF0FF#16
  | .trapNone80 _ | .trapNone40 _ | .trapNone00 _ | .trapNone30 _ | .trapNone28 _ | .trapNone26 _ => 0xF0FF#16

end Sys2Proof
end

