-- ==== Sys2Proof/Machine/State.lean ====
section
/-! DEFINITION. The state of the machine (10_state.md), the reasons a step can stop, and the state after reset
(70_reset R180, R181). -/

namespace Sys2Proof.Machine

/-- R0 to R7, 16 bits each; none is hardwired (10_state R20). -/
structure RegFile where
  r0 : Word
  r1 : Word
  r2 : Word
  r3 : Word
  r4 : Word
  r5 : Word
  r6 : Word
  r7 : Word
  deriving DecidableEq, Repr

/-- The condition register: exactly one of three flags (10_state R24; held as the three-valued enumeration the rule
allows, its numbers are `Cond.bits`, log 10). -/
inductive Cond where
  | pos | zro | neg
  deriving DecidableEq, Repr

/-- The run state (10_state R26). -/
inductive RunState where
  | running | stopped
  deriving DecidableEq, Repr

/-- The stop cause (10_state R26, 60_exceptions R160; D16, log 26). -/
inductive StopCause where
  /-- TRAP HALT: the normal end of a run (44_trap R136). -/
  | halt
  /-- The external stop request (60_exceptions R167). -/
  | stopRequest
  /-- RTI or RES: opcode, word, and the address the word was fetched from (45_reserved R152). -/
  | unsupportedInstruction (op : BitVec 4) (instr addr : Word)
  deriving DecidableEq, Repr

/-- The routine whose step has begun and has not completed (40_step R92, 93_implementation_defined U14; log 8). -/
inductive PendingStep where
  /-- GETC waits (44_trap R131). -/
  | getc
  /-- IN waits, its prompt already written (44_trap R134). -/
  | inn
  /-- PUTS goes on at this cell: it has read as many cells as there are and met no zero cell (44_trap R133; log 21). -/
  | puts (a : Word)
  deriving DecidableEq, Repr

/-- What arrives at the console once the listed batches are used up (10_state R37; log 6). -/
inductive LaterBatches where
  /-- These batches, over and over; nothing if there is none. -/
  | again (batches : List (List Byte))
  /-- The free batches `Config.freeBatch n`, `Config.freeBatch (n + 1)`, and so on. -/
  | free (n : Nat)
  deriving DecidableEq, Repr

/-- What will arrive at the console, one batch of characters before each coming console operation, for ever (10_state
R37; log 6). -/
structure Arrivals where
  /-- The next batches, in order; a batch may be empty. -/
  coming : List (List Byte)
  /-- The batches after those. -/
  later : LaterBatches
  deriving DecidableEq, Repr

/-- Nothing will arrive. -/
def Arrivals.nothing : Arrivals := ⟨[], .again []⟩

/-- The memory array: (cell address, 16-bit value), addresses strictly rising, no entry equal to
`Config.unlistedCell` (`Memory.wf`). The unit is the 16-bit cell, the only thing an address names (10_state R36,
20_memory R48; log 1). -/
abbrev Memory := List (Nat × Word)

/-- The whole state: the core's (10_state R20 to R36) and the environment's that a model carries beside it (R37,
R38). Nothing else is state. -/
structure State where
  /-- R0 to R7 (R20). -/
  regs : RegFile
  /-- The program counter, a cell address (R27). -/
  pc : Word
  /-- The condition register (R24). -/
  cond : Cond
  /-- The run state (R26). -/
  run : RunState
  /-- The stop cause; none while running (R26, R32). -/
  cause : Option StopCause
  /-- The step that has begun and has not completed, if there is one (40_step R92; log 8). -/
  waiting : Option PendingStep
  /-- The 65,536 cells, KBSR and KBDR among them (R34, R36). -/
  mem : Memory
  /-- Environment: the input characters pending now, oldest first (R37). -/
  consoleIn : List Byte
  /-- Environment: what will arrive, one batch before each coming `ConsolePoll` or `ConsoleRead` (R37; log 6). -/
  arrivals : Arrivals
  /-- Environment: the bytes given to `ConsoleWrite`, oldest first (R37, 44_trap R139). -/
  consoleOut : List Byte
  /-- Environment: how many bytes of `consoleOut` a `ConsoleFlush` has made visible (00_scope R13; log 18). -/
  flushed : Nat
  /-- Environment: the level of the stop request at each coming sample; not asserted beyond the list (R38; log 7). -/
  stopSamples : List Bool
  /-- The launch parameter IN_PROMPT, which no step changes (00_scope R7, D14; log 4). -/
  inPrompt : List Byte
  deriving DecidableEq, Repr

/-- Why a step stops the machine with a fault: never. No rule lets a step fail (20_memory R40: "No error
conditions"; 60_exceptions R160); UnsupportedInstruction is a next state whose `run` is Stopped (45_reserved R152,
log 9). Nobody raises a fault, which is safe and loses nothing. -/
inductive Fault where
  deriving DecidableEq, Repr

/-- Why a step is refused. -/
inductive Refusal where
  /-- An instruction with no meaning in the model, by its mnemonic; raised by an arm of `exec` only. Safe. Every
  instruction has its meaning, so no arm raises it. -/
  | notModelled (mnemonic : String)
  deriving DecidableEq, Repr

/-- The state reset makes from its launch arguments (70_reset R180, R181): START_ADDRESS, REG_RESET, MEM_RESET with
the loaded images over it, IN_PROMPT, and what the environment will do. -/
def State.launch (start : Word) (regs : RegFile) (mem : Memory) (prompt : List Byte) (input : List Byte)
    (arrivals : Arrivals) (stops : List Bool) : State where
  regs := regs
  pc := start
  cond := .zro
  run := .running
  cause := none
  waiting := none
  mem := mem
  consoleIn := input
  arrivals := arrivals
  consoleOut := []
  flushed := 0
  stopSamples := stops
  inPrompt := prompt

/-- R0 to R7 in `State.reset`: zero. DESIGN CHOICE, unsafe (log 2): the spec leaves REG_RESET open (10_state R23). -/
def RegFile.zero : RegFile := ⟨0#16, 0#16, 0#16, 0#16, 0#16, 0#16, 0#16, 0#16⟩

/-- The machine right after reset, nothing loaded: pc = 0x3000, cond = ZRO, Running (R181); the launch arguments the
spec leaves open are the ones logs 2 to 7 name. -/
def State.reset : State := State.launch Config.startAddress RegFile.zero [] [] [] Arrivals.nothing []

end Sys2Proof.Machine
end

