-- ==== Sys2Proof/Machine/Flags.lean ====
section
/-! DEFINITION. The condition flags: the value rule of setcc (40_step R93) and the test of BR (42_control R110). -/

namespace Sys2Proof.Machine

/-- The flag of a value: NEG if bit 15 is 1, else ZRO if it is 0, else POS (40_step R93). -/
def condOf (v : Word) : Cond :=
  if v.getLsbD 15 then .neg else if v = 0#16 then .zro else .pos

/-- The one-hot number of a flag: POS 0x0001, ZRO 0x0002, NEG 0x0004 (10_state R24, D3; log 10). -/
def Cond.bits : Cond → Word
  | .pos => 0x0001#16
  | .zro => 0x0002#16
  | .neg => 0x0004#16

/-- BR is taken: one of its condition bits names the flag `cond` holds (42_control R110). -/
def branchTaken (n z p : Bool) (c : Cond) : Bool :=
  (n && c == .neg) || (z && c == .zro) || (p && c == .pos)

end Sys2Proof.Machine
end

