-- ==== Sys2Proof/Machine/Operands.lean ====
section
/-! DEFINITION. The operand forms: extension of fields and the halves of a word (00_scope R8, R10, 30_encoding R66,
43_load_store R127). -/

namespace Sys2Proof.Machine

/-- `sext_N`: the 16-bit value whose low N bits are the field and whose higher bits all equal its top bit
(00_scope R10). -/
def sext {n : Nat} (f : BitVec n) : Word := f.signExtend 16

/-- `zext_8`: the 16-bit value whose low byte is the character (00_scope R10, D9). -/
def zextByte (b : Byte) : Word := b.setWidth 16

/-- `v[7:0]` (00_scope R8). -/
def lowByte (v : Word) : Byte := v.extractLsb' 0 8

/-- `v[15:8]` (00_scope R8). -/
def highByte (v : Word) : Byte := v.extractLsb' 8 8

/-- `(pc + sext_k(offset)) mod 2^16`, from the incremented pc (40_step R96, 20_memory R46). -/
def pcRelative {n : Nat} (pc : Word) (off : BitVec n) : Word := pc + sext off

/-- `(x[BaseR] + sext_6(offset6)) mod 2^16` (43_load_store R127, 20_memory R46). -/
def basePlusOffset (base : Word) (off : BitVec 6) : Word := base + sext off

end Sys2Proof.Machine
end

