-- ==== Sys2Proof/Machine/Ops.lean ====
section
/-! DEFINITION. The named operations over registers, memory, the console and the run state, each said once; the
meanings of the instructions call these. -/

namespace Sys2Proof.Machine

/-! ### Registers (00_scope R11) -/

/-- The register of a register file that a selector names (10_state R20). -/
def RegFile.get (f : RegFile) : Reg → Word
  | .r0 => f.r0
  | .r1 => f.r1
  | .r2 => f.r2
  | .r3 => f.r3
  | .r4 => f.r4
  | .r5 => f.r5
  | .r6 => f.r6
  | .r7 => f.r7

/-- The register file with one register written (10_state R20). -/
def RegFile.set (f : RegFile) (r : Reg) (v : Word) : RegFile :=
  match r with
  | .r0 => { f with r0 := v }
  | .r1 => { f with r1 := v }
  | .r2 => { f with r2 := v }
  | .r3 => { f with r3 := v }
  | .r4 => { f with r4 := v }
  | .r5 => { f with r5 := v }
  | .r6 => { f with r6 := v }
  | .r7 => { f with r7 := v }

/-- `x[i]` (00_scope R11). -/
def State.reg (s : State) (r : Reg) : Word := s.regs.get r

/-- `x[i] <- v` (00_scope R11). -/
def State.setReg (s : State) (r : Reg) (v : Word) : State := { s with regs := s.regs.set r v }

/-- `pc <- target` (00_scope R11). -/
def State.setPc (s : State) (v : Word) : State := { s with pc := v }

/-- `cond <- F` (00_scope R11). -/
def State.setCond (s : State) (c : Cond) : State := { s with cond := c }

/-- `setcc(i)`, from the value register `r` holds now (40_step R93). -/
def State.setcc (s : State) (r : Reg) : State := s.setCond (condOf (s.reg r))

/-- What every flag-defining instruction ends with: write DR, then setcc(DR) (41_alu, 43_load_store). -/
def State.writeDest (s : State) (dr : Reg) (v : Word) : State := (s.setReg dr v).setcc dr

/-- `x[7] <- pc`, the link of JSR, JSRR and TRAP (10_state R21). -/
def State.link (s : State) : State := s.setReg .r7 s.pc

/-! ### The memory array (10_state R36) -/

/-- The stored value of a cell; an unlisted cell reads `Config.unlistedCell` (log 3). -/
def Memory.get : Memory → Nat → Word
  | [], _ => Config.unlistedCell
  | (b, v) :: m, a => if a = b then v else Memory.get m a

/-- Store to a cell, keeping the canonical form: storing `Config.unlistedCell` removes the entry. -/
def Memory.set : Memory → Nat → Word → Memory
  | [], a, v => if v = Config.unlistedCell then [] else [(a, v)]
  | (b, u) :: m, a, v =>
    if a < b then (if v = Config.unlistedCell then (b, u) :: m else (a, v) :: (b, u) :: m)
    else if a = b then (if v = Config.unlistedCell then m else (a, v) :: m)
    else (b, u) :: Memory.set m a v

/-- The canonical form: addresses strictly rising and below 65,536, no entry that an unlisted cell would equal. -/
abbrev Memory.wf (m : Memory) : Prop :=
  m.Pairwise (fun x y => x.1 < y.1) ∧ ∀ c ∈ m, c.1 < Config.memCells ∧ c.2 ≠ Config.unlistedCell

/-- `mem[a]`: the stored value, without any side effect (00_scope R11). -/
def State.cell (s : State) (a : Word) : Word := s.mem.get a.toNat

/-- `mem[a] <- v`. -/
def State.setCell (s : State) (a v : Word) : State := { s with mem := s.mem.set a.toNat v }

/-! ### The console (00_scope R13) -/

/-- The next of the later batches. -/
def LaterBatches.head : LaterBatches → List Byte
  | .again batches => batches.headD []
  | .free n => Config.freeBatch n

/-- The later batches after the next. -/
def LaterBatches.tail : LaterBatches → LaterBatches
  | .again [] => .again []
  | .again (b :: bs) => .again (bs ++ [b])
  | .free n => .free (n + 1)

/-- The batch that joins the input next (10_state R37; log 6). -/
def Arrivals.head (a : Arrivals) : List Byte :=
  match a.coming with
  | b :: _ => b
  | [] => a.later.head

/-- What arrives after the next batch. -/
def Arrivals.tail (a : Arrivals) : Arrivals :=
  match a.coming with
  | _ :: bs => { a with coming := bs }
  | [] => { a with later := a.later.tail }

/-- The queue and the coming batches of the console input. -/
def State.setInput (s : State) (queue : List Byte) (batches : Arrivals) : State :=
  { s with consoleIn := queue, arrivals := batches }

/-- What is pending once the environment's next batch has come (10_state R37). -/
def State.incoming (s : State) : List Byte := s.consoleIn ++ s.arrivals.head

/-- The environment extends the input queue, as it may before any console operation (10_state R37; log 6). -/
def State.deliver (s : State) : State := s.setInput s.incoming s.arrivals.tail

/-- Remove the oldest pending character. -/
def State.dropInput (s : State) : State := s.setInput s.consoleIn.tail s.arrivals

/-- `ConsoleRead()` where it may have to wait: the oldest pending character, removed, or none if no character is
pending (00_scope R13). -/
def State.consoleRead (s : State) : Option Byte × State :=
  (s.deliver.consoleIn.head?, s.deliver.dropInput)

/-- `ConsoleWrite(b)` (00_scope R13). -/
def State.consoleWrite (s : State) (b : Byte) : State := { s with consoleOut := s.consoleOut ++ [b] }

/-- `ConsoleWrite` of each byte in order. -/
def State.consoleWrites (s : State) (bs : List Byte) : State := { s with consoleOut := s.consoleOut ++ bs }

/-- `ConsoleFlush()`: every byte already written is visible; nothing is appended (00_scope R13, C3; log 18). -/
def State.consoleFlush (s : State) : State := { s with flushed := s.consoleOut.length }

/-! ### Memory accesses (20_memory) -/

/-- `KbdPoll()` (20_memory R43). After `ConsolePoll` (the delivery and the test) has answered true, `ConsoleRead`
takes the oldest character and cannot wait; a batch between the two could not be seen (log 6). -/
def State.kbdPoll (s : State) : State :=
  match s.deliver.consoleIn with
  | [] => s.deliver.setCell Config.kbsr 0#16
  | c :: _ => (s.deliver.dropInput.setCell Config.kbsr Config.kbsrReady).setCell Config.kbdr (zextByte c)

/-- The state after `MemRead(addr, 16)`: a read of KBSR has polled the keyboard (20_memory R42). -/
def State.afterRead (s : State) (addr : Word) : State := if addr = Config.kbsr then s.kbdPoll else s

/-- `MemRead(addr, 16)`: the value, and the state the read leaves (20_memory R42). Every read of the core is this one:
fetch, data, pointers, string cells (R44, D11; log 16). -/
def State.memRead (s : State) (addr : Word) : Word × State := ((s.afterRead addr).cell addr, s.afterRead addr)

/-- `MemWrite(addr, 16, v)`: a plain store, at every address (20_memory R41). -/
def State.memWrite (s : State) (addr v : Word) : State := s.setCell addr v

/-! ### Stopping (00_scope R14) -/

/-- `stop(c)`: `run <- Stopped; cause <- c` (00_scope R14). -/
def State.stop (s : State) (c : StopCause) : State := { s with run := .stopped, cause := some c }

/-- Taking the one exception of this machine, `raise UnsupportedInstruction(op, instr, addr)` with
`addr = (pc - 1) mod 2^16`: the cause is recorded, the machine stops, nothing else changes; there is no handler and
no return (45_reserved R152, 60_exceptions R164, R165). -/
def State.raiseUnsupported (s : State) (op : BitVec 4) (instr : Word) : State :=
  s.stop (.unsupportedInstruction op instr (s.pc - 1#16))

/-! ### The stop request (60_exceptions R167) -/

/-- The level of the stop request at the sample a step takes now; beyond the list it is not asserted (log 7). -/
def State.stopAsserted (s : State) : Bool := s.stopSamples.headD false

/-- The sample is taken. -/
def State.afterSample (s : State) : State := { s with stopSamples := s.stopSamples.tail }

/-! ### Waiting (40_step R92) -/

/-- The step is not complete, or it is (log 8). -/
def State.setWaiting (s : State) (w : Option PendingStep) : State := { s with waiting := w }

/-- GETC from its `ConsoleRead` on: with a character, R0 gets it and the step completes; without one, the step waits
(44_trap R131, D22). -/
def State.getcRead (s : State) : State :=
  match s.consoleRead with
  | (some c, t) => (t.setReg .r0 (zextByte c)).setWaiting none
  | (none, t) => t.setWaiting (some .getc)

/-- IN from its `ConsoleRead` on: with a character, the echo, R0, and the step completes; without one, the step waits
(44_trap R134, D22). -/
def State.inRead (s : State) : State :=
  match s.consoleRead with
  | (some c, t) => ((t.consoleWrite c).setReg .r0 (zextByte c)).setWaiting none
  | (none, t) => t.setWaiting (some .inn)

/-! ### Strings (44_trap R133, R135) -/

/-- The loop of PUTS from cell `a`, for so many cells; if none of them ends the string, the step is not complete and goes
on at the next cell (44_trap R133, U14; log 21). -/
def putsLoop : Nat → Word → State → State
  | 0, a, s => s.setWaiting (some (.puts a))
  | n + 1, a, s =>
    if (s.memRead a).1 = 0#16 then (s.memRead a).2
    else putsLoop n (a + 1#16) ((s.memRead a).2.consoleWrite (lowByte (s.memRead a).1))

/-- PUTS from cell `a`, once around memory at most: a step that completes does so here, unless characters that keep
coming at KBSR leave the whole memory without a zero cell (44_trap R133; log 21). -/
def State.puts (s : State) (a : Word) : State := putsLoop Config.memCells a s

/-- The loop of PUTSP from cell `a`, with a bound on the cells it reads (44_trap R135). -/
def putspLoop : Nat → Word → State → State
  | 0, _, s => s
  | n + 1, a, s =>
    let c := (s.memRead a).1
    let t := (s.memRead a).2
    if lowByte c = 0#8 then t
    else if highByte c = 0#8 then t.consoleWrite (lowByte c)
    else putspLoop n (a + 1#16) ((t.consoleWrite (lowByte c)).consoleWrite (highByte c))

/-- PUTSP from cell `a`. The bound is never reached: the low byte of every read of KBSR is zero, so the string ends
there at the latest, and `putsp` obeys the loop of R135 with no bound (`State.putsp_eq`, log 21). -/
def State.putsp (s : State) (a : Word) : State := putspLoop Config.memCells a s

/-! ### A step that has begun (40_step R92) -/

/-- A begun step goes on: one more try of the read it waits in, or PUTS from the cell it has come to (40_step R92, U14;
log 8, log 21). -/
def State.resume (s : State) : PendingStep → State
  | .getc => s.getcRead
  | .inn => s.inRead
  | .puts a => (s.setWaiting none).puts a

/-! ### Fetch (40_step R90) -/

/-- The word the step fetches at `pc` (40_step R90, 20_memory R44). -/
def State.fetchWord (s : State) : Word := (s.memRead s.pc).1

/-- The state after the fetch and the increment of `pc` (40_step R90, 10_state R27). -/
def State.afterFetch (s : State) : State := (s.memRead s.pc).2.setPc (s.pc + 1#16)

/-- A cell a word can be placed in so that the next fetch reads it: the one at `pc`, but not KBSR, whose read the
keyboard overwrites (20_memory R43; log 19). -/
def State.fetchableAt (s : State) : Word := if s.pc = Config.kbsr then Config.startAddress else s.pc

/-- The next sample of the stop request reads not asserted; the later ones are kept. -/
def releaseStop : List Bool → List Bool
  | [] => []
  | _ :: later => false :: later

end Sys2Proof.Machine
end

