-- ==== Sys2Proof/Machine/LoadStore.lean ====
section
/-! DEFINITION. LD, LDI, LDR, LEA, ST, STI, STR (43_load_store.md R120 to R127). Every read is `memRead`, every write
`memWrite`; no access faults. -/

namespace Sys2Proof.Machine

/-- LD (43_load_store R120). -/
def execLd (dr : Reg) (off : BitVec 9) (s : State) : Host.Outcome State Fault Refusal :=
  let r := s.memRead (pcRelative s.pc off)
  .next (r.2.writeDest dr r.1)

/-- LDI: the pointer, then the data (43_load_store R121). -/
def execLdi (dr : Reg) (off : BitVec 9) (s : State) : Host.Outcome State Fault Refusal :=
  let p := s.memRead (pcRelative s.pc off)
  let r := p.2.memRead p.1
  .next (r.2.writeDest dr r.1)

/-- LDR (43_load_store R122). -/
def execLdr (dr base : Reg) (off : BitVec 6) (s : State) : Host.Outcome State Fault Refusal :=
  let r := s.memRead (basePlusOffset (s.reg base) off)
  .next (r.2.writeDest dr r.1)

/-- LEA: the address itself, and the flags of it; no access (43_load_store R123). -/
def execLea (dr : Reg) (off : BitVec 9) (s : State) : Host.Outcome State Fault Refusal :=
  .next (s.writeDest dr (pcRelative s.pc off))

/-- ST (43_load_store R124). -/
def execSt (sr : Reg) (off : BitVec 9) (s : State) : Host.Outcome State Fault Refusal :=
  .next (s.memWrite (pcRelative s.pc off) (s.reg sr))

/-- STI: one read of the pointer, then one write (43_load_store R125). -/
def execSti (sr : Reg) (off : BitVec 9) (s : State) : Host.Outcome State Fault Refusal :=
  let p := s.memRead (pcRelative s.pc off)
  .next (p.2.memWrite p.1 (s.reg sr))

/-- STR (43_load_store R126). -/
def execStr (sr base : Reg) (off : BitVec 6) (s : State) : Host.Outcome State Fault Refusal :=
  .next (s.memWrite (basePlusOffset (s.reg base) off) (s.reg sr))

end Sys2Proof.Machine
end

