-- ==== Sys2Proof/Machine/Reserved.lean ====
section
/-! DEFINITION. RTI and RES, the unsupported opcodes (45_reserved.md R150 to R152; D5, log 13). -/

namespace Sys2Proof.Machine

/-- RTI: takes UnsupportedInstruction, always (45_reserved R150). -/
def execRti (low : BitVec 12) (s : State) : Host.Outcome State Fault Refusal :=
  .next (s.raiseUnsupported 0x8#4 (place 12 0x8#4 ||| place 0 low))

/-- RES: takes UnsupportedInstruction, always (45_reserved R151). -/
def execRes (low : BitVec 12) (s : State) : Host.Outcome State Fault Refusal :=
  .next (s.raiseUnsupported 0xD#4 (place 12 0xD#4 ||| place 0 low))

end Sys2Proof.Machine
end

