-- ==== Sys2Proof/Machine/Trap.lean ====
section
/-! DEFINITION. TRAP and its routines (44_trap.md R130 to R139). Every TRAP first writes the incremented pc to R7
(R130); the routine runs inside the same step; `pc` and `cond` are left alone. -/

namespace Sys2Proof.Machine

/-- GETC (44_trap R131); waits if no character is pending (D22, log 8). -/
def execTrapGetc (s : State) : Host.Outcome State Fault Refusal :=
  .next s.link.getcRead

/-- OUT (44_trap R132). -/
def execTrapOut (s : State) : Host.Outcome State Fault Refusal :=
  .next (s.link.consoleWrite (lowByte (s.link.reg .r0)))

/-- PUTS (44_trap R133); a string with no end never completes (U14, log 21). -/
def execTrapPuts (s : State) : Host.Outcome State Fault Refusal :=
  .next (s.link.puts (s.link.reg .r0))

/-- IN: the prompt, then the read, the echo and R0 (44_trap R134); waits if no character is pending (D22, log 8). -/
def execTrapIn (s : State) : Host.Outcome State Fault Refusal :=
  .next (s.link.consoleWrites s.inPrompt).inRead

/-- PUTSP (44_trap R135). -/
def execTrapPutsp (s : State) : Host.Outcome State Fault Refusal :=
  .next (s.link.putsp (s.link.reg .r0))

/-- HALT: flush, then stop; no message (44_trap R136, D15). -/
def execTrapHalt (s : State) : Host.Outcome State Fault Refusal :=
  .next (s.link.consoleFlush.stop .halt)

/-- A TRAP whose vector has no routine: the link and nothing more (44_trap R137, D6; log 12). -/
def noRoutine (s : State) : Host.Outcome State Fault Refusal :=
  .next s.link

/-- TRAP with no routine, vectors 0x80 to 0xFF (44_trap R137). -/
def execTrapNone80 (_vect : Byte) (s : State) : Host.Outcome State Fault Refusal := noRoutine s

/-- TRAP with no routine, vectors 0x40 to 0x7F (44_trap R137). -/
def execTrapNone40 (_vect : Byte) (s : State) : Host.Outcome State Fault Refusal := noRoutine s

/-- TRAP with no routine, vectors 0x00 to 0x1F (44_trap R137). -/
def execTrapNone00 (_vect : Byte) (s : State) : Host.Outcome State Fault Refusal := noRoutine s

/-- TRAP with no routine, vectors 0x30 to 0x3F (44_trap R137). -/
def execTrapNone30 (_vect : Byte) (s : State) : Host.Outcome State Fault Refusal := noRoutine s

/-- TRAP with no routine, vectors 0x28 to 0x2F (44_trap R137). -/
def execTrapNone28 (_vect : Byte) (s : State) : Host.Outcome State Fault Refusal := noRoutine s

/-- TRAP with no routine, vectors 0x26 and 0x27 (44_trap R137). -/
def execTrapNone26 (_vect : Byte) (s : State) : Host.Outcome State Fault Refusal := noRoutine s

end Sys2Proof.Machine
end

