-- ==== Sys2Proof/Machine/Step.lean ====
section
/-! DEFINITION. One step of the execution loop (40_step R90, R98; 60_exceptions R167). -/

namespace Sys2Proof.Machine

/-- One step: nothing when Stopped (R98); a begun step goes on, with no sample of the stop request (R92, log 8); else
the sample of the stop request (R167), the fetch, the increment, and the instruction (R90). -/
def step (s : State) : Host.Outcome State Fault Refusal :=
  match s.run, s.waiting with
  | .stopped, _ => .next s
  | .running, some w => .next (s.resume w)
  | .running, none =>
    if s.stopAsserted then .next (s.afterSample.stop .stopRequest)
    else exec (decode s.afterSample.fetchWord) s.afterSample.afterFetch

/-- `s` with one word placed where the very next step fetches it and runs it: Running, no step begun, the next sample
of the stop request not asserted, and the word in the cell `pc` names; a `pc` of KBSR, where no word can be placed,
becomes START_ADDRESS (log 19). -/
def State.withFetchWord (s : State) (_nbits w : Nat) : State :=
  { (s.setPc s.fetchableAt).setCell s.fetchableAt (BitVec.ofNat 16 w) with
    run := .running, cause := none, waiting := none, stopSamples := releaseStop s.stopSamples }

end Sys2Proof.Machine
end

