-- ==== Sys2Proof/Machine/Loader.lean ====
section
/-! DEFINITION. What the loader does to the machine between reset and the first step (70_reset R183). The loader is
outside the core; its contract with the memory cells is modelled, its files and errors are not (00_scope R5; log 20). -/

namespace Sys2Proof.Machine

/-- Store words at consecutive cells from address `a` on. -/
def State.loadWords (s : State) (a : Word) : List Word → State
  | [] => s
  | w :: ws => (s.setCell a w).loadWords (a + 1#16) ws

/-- Populate the cells [origin, origin + N) with the N words; an image that would run past the last cell is rejected
before any cell is written (70_reset R183). -/
def State.loadImage (s : State) (origin : Word) (words : List Word) : Option State :=
  if origin.toNat + words.length ≤ Config.memCells then some (s.loadWords origin words) else none

/-- The 16-bit words of a big-endian byte sequence, the first byte of a pair the high one (70_reset R183); an odd
number of bytes is no sequence of words (log 20). -/
def wordsOfBytes : List Byte → Option (List Word)
  | [] => some []
  | [_] => none
  | hi :: lo :: rest => (wordsOfBytes rest).map ((hi ++ lo : Word) :: ·)

/-- Load one image in its external format: the origin word, then the words (70_reset R183). -/
def State.loadImageBytes (s : State) (bytes : List Byte) : Option State :=
  match wordsOfBytes bytes with
  | some (origin :: words) => s.loadImage origin words
  | _ => none

/-- Load several images in the order given; a later one overwrites an earlier one, and if one fails the core never
starts (70_reset R183, D25). -/
def State.loadImages (s : State) : List (List Byte) → Option State
  | [] => some s
  | image :: images => (s.loadImageBytes image).bind fun t => t.loadImages images

end Sys2Proof.Machine
end

