-- ==== Sys2Proof/Safety.lean ====
section
/-! DEFINITION. What counts as a safe state and a safe end of a run, and the terms the claims use: frames, the
instructions a rule names, the strings PUTS and PUTSP read. -/

namespace Sys2Proof.Machine

/-! ### Ends of a run (70_reset R185) -/

/-- The normal end of a run: Stopped by HALT (70_reset R185). -/
def State.EndedNormally (s : State) : Prop := s.run = .stopped ∧ s.cause = some .halt

/-- The run ended in a fault: Stopped by an unsupported instruction (10_state R26, 70_reset R185). -/
def State.Faulted (s : State) : Prop :=
  s.run = .stopped ∧ ∃ op instr addr, s.cause = some (.unsupportedInstruction op instr addr)

/-! ### The invariant of the machine -/

/-- What holds of the machine at reset and is kept by every step. -/
structure State.Inv (s : State) : Prop where
  /-- The memory list has its canonical form. -/
  memory : s.mem.wf
  /-- There is a stop cause exactly when the machine is Stopped (10_state R26, R32). -/
  cause_iff : s.run = .stopped ↔ s.cause ≠ none
  /-- A machine whose step has begun and not completed is Running (40_step R92). -/
  waiting_running : s.waiting ≠ none → s.run = .running
  /-- Only bytes that were written can have been flushed (00_scope R13). -/
  flushed_le : s.flushed ≤ s.consoleOut.length
  /-- After HALT everything written is flushed (44_trap R136). -/
  halt_flushed : s.cause = some .halt → s.flushed = s.consoleOut.length
  /-- A recorded unsupported word has the recorded opcode, 8 or 13 (10_state R26). -/
  unsupported : ∀ op instr addr, s.cause = some (.unsupportedInstruction op instr addr) →
    opcodeBits instr = op ∧ (op = 0x8#4 ∨ op = 0xD#4)

/-- A step is about to sample the stop request and fetch: Running, and no step is begun. -/
def State.AtTopOfStep (s : State) : Prop := s.run = .running ∧ s.waiting = none

/-! ### Frames: what an operation leaves unchanged -/

/-- Every register outside the list is unchanged. -/
def SameRegsBut (written : List Reg) (s t : State) : Prop := ∀ r, r ∉ written → t.reg r = s.reg r

/-- Every memory cell is unchanged. -/
def SameMemory (s t : State) : Prop := ∀ a, t.cell a = s.cell a

/-- Every memory cell but the two keyboard cells is unchanged. -/
def SameMemoryButKeyboard (s t : State) : Prop :=
  ∀ a, a ≠ Config.kbsr → a ≠ Config.kbdr → t.cell a = s.cell a

/-- The input stream is unchanged. -/
def SameInput (s t : State) : Prop := t.consoleIn = s.consoleIn ∧ t.arrivals = s.arrivals

/-- The output stream is unchanged, and so is what of it is flushed. -/
def SameOutput (s t : State) : Prop := t.consoleOut = s.consoleOut ∧ t.flushed = s.flushed

/-- Run state, cause and wait are unchanged. -/
def SameRun (s t : State) : Prop := t.run = s.run ∧ t.cause = s.cause ∧ t.waiting = s.waiting

/-- The stop request's samples and the launch parameter are unchanged. -/
def SameLaunch (s t : State) : Prop := t.stopSamples = s.stopSamples ∧ t.inPrompt = s.inPrompt

/-- Nothing outside the registers, `pc` and `cond` is changed. -/
def SameOutsideRegs (s t : State) : Prop :=
  SameMemory s t ∧ SameInput s t ∧ SameOutput s t ∧ SameRun s t ∧ SameLaunch s t

/-- What 20_memory R42 and R43 say of a read of cell `a` in `s`: `v` is its value, and the memory and the input are
then those of `u`. -/
structure ReadsCell (s : State) (a v : Word) (u : State) : Prop where
  /-- A read of any cell but KBSR is plain. -/
  plain : a ≠ Config.kbsr → v = s.cell a ∧ SameMemory s u ∧ SameInput s u
  /-- A read of KBSR with no key pending clears KBSR and yields 0; KBDR is left alone. -/
  no_key : a = Config.kbsr → s.incoming = [] →
    v = 0x0000#16 ∧ (∀ b, u.cell b = if b = Config.kbsr then 0x0000#16 else s.cell b) ∧
      u.consoleIn = [] ∧ u.arrivals = s.arrivals.tail
  /-- A read of KBSR with a key pending yields 0x8000, consumes the oldest character and puts it in KBDR. -/
  key : a = Config.kbsr → ∀ c cs, s.incoming = c :: cs →
    v = 0x8000#16 ∧
      (∀ b, u.cell b =
        if b = Config.kbsr then 0x8000#16 else if b = Config.kbdr then zextByte c else s.cell b) ∧
      u.consoleIn = cs ∧ u.arrivals = s.arrivals.tail

/-! ### The instructions a rule names -/

/-- The flag-defining instructions: ADD, AND, NOT, LD, LDI, LDR, LEA (00_scope R16, 10_state R25). -/
def definesFlags : Instr → Bool
  | .addReg _ _ _ | .addImm _ _ _ | .andReg _ _ _ | .andImm _ _ _ | .not _ _ | .ld _ _ | .ldi _ _ | .ldr _ _ _
  | .lea _ _ => true
  | .br _ _ _ _ | .st _ _ | .jsr _ | .jsrr _ | .str _ _ _ | .rti _ | .sti _ _ | .jmp _ | .res _ | .trapGetc
  | .trapOut | .trapPuts | .trapIn | .trapPutsp | .trapHalt | .trapNone80 _ | .trapNone40 _ | .trapNone00 _
  | .trapNone30 _ | .trapNone28 _ | .trapNone26 _ => false

/-- The general registers an instruction writes: the last column of the table of 10_state R22. -/
def registersWritten : Instr → List Reg
  | .addReg dr _ _ | .addImm dr _ _ | .andReg dr _ _ | .andImm dr _ _ | .not dr _ | .ld dr _ | .ldi dr _
  | .ldr dr _ _ | .lea dr _ => [dr]
  | .jsr _ | .jsrr _ | .trapOut | .trapPuts | .trapPutsp | .trapHalt | .trapNone80 _ | .trapNone40 _
  | .trapNone00 _ | .trapNone30 _ | .trapNone28 _ | .trapNone26 _ => [.r7]
  | .trapGetc | .trapIn => [.r7, .r0]
  | .br _ _ _ _ | .st _ _ | .sti _ _ | .str _ _ _ | .jmp _ | .rti _ | .res _ => []

/-- The instructions that change `pc` beyond the increment: BR, JMP, JSR, JSRR (10_state R28). -/
def movesPc : Instr → Bool
  | .br _ _ _ _ | .jmp _ | .jsr _ | .jsrr _ => true
  | .addReg _ _ _ | .addImm _ _ _ | .andReg _ _ _ | .andImm _ _ _ | .not _ _ | .ld _ _ | .ldi _ _ | .ldr _ _ _
  | .lea _ _ | .st _ _ | .sti _ _ | .str _ _ _ | .rti _ | .res _ | .trapGetc | .trapOut | .trapPuts | .trapIn
  | .trapPutsp | .trapHalt | .trapNone80 _ | .trapNone40 _ | .trapNone00 _ | .trapNone30 _ | .trapNone28 _
  | .trapNone26 _ => false

/-- The instructions that call `MemWrite`: ST, STI, STR (20_memory R45). -/
def storesMemory : Instr → Bool
  | .st _ _ | .sti _ _ | .str _ _ _ => true
  | .br _ _ _ _ | .jmp _ | .jsr _ | .jsrr _ | .addReg _ _ _ | .addImm _ _ _ | .andReg _ _ _ | .andImm _ _ _
  | .not _ _ | .ld _ _ | .ldi _ _ | .ldr _ _ _ | .lea _ _ | .rti _ | .res _ | .trapGetc | .trapOut | .trapPuts
  | .trapIn | .trapPutsp | .trapHalt | .trapNone80 _ | .trapNone40 _ | .trapNone00 _ | .trapNone30 _
  | .trapNone28 _ | .trapNone26 _ => false

/-- The instructions that can call `ConsoleWrite`: OUT, PUTS, IN, PUTSP (00_scope R13). -/
def writesConsole : Instr → Bool
  | .trapOut | .trapPuts | .trapIn | .trapPutsp => true
  | .br _ _ _ _ | .jmp _ | .jsr _ | .jsrr _ | .addReg _ _ _ | .addImm _ _ _ | .andReg _ _ _ | .andImm _ _ _
  | .not _ _ | .ld _ _ | .ldi _ _ | .ldr _ _ _ | .lea _ _ | .st _ _ | .sti _ _ | .str _ _ _ | .rti _ | .res _
  | .trapGetc | .trapHalt | .trapNone80 _ | .trapNone40 _ | .trapNone00 _ | .trapNone30 _ | .trapNone28 _
  | .trapNone26 _ => false

/-- Opcode 1111: the six routines and the six rows without one (30_encoding R70). -/
def isTrap : Instr → Bool
  | .trapGetc | .trapOut | .trapPuts | .trapIn | .trapPutsp | .trapHalt | .trapNone80 _ | .trapNone40 _
  | .trapNone00 _ | .trapNone30 _ | .trapNone28 _ | .trapNone26 _ => true
  | .br _ _ _ _ | .jmp _ | .jsr _ | .jsrr _ | .addReg _ _ _ | .addImm _ _ _ | .andReg _ _ _ | .andImm _ _ _
  | .not _ _ | .ld _ _ | .ldi _ _ | .ldr _ _ _ | .lea _ _ | .st _ _ | .sti _ _ | .str _ _ _ | .rti _
  | .res _ => false

/-! ### Streams and strings -/

/-- What will arrive once the next `k` batches have come (10_state R37). -/
def Arrivals.drop : Nat → Arrivals → Arrivals
  | 0, a => a
  | k + 1, a => a.tail.drop k

/-- The characters of the next `k` batches, in order (10_state R37). -/
def Arrivals.first : Nat → Arrivals → List Byte
  | 0, _ => []
  | k + 1, a => a.head ++ a.tail.first k

/-- The loop of PUTS as its rule writes it, with no bound: begun in `s` at cell `a`, it exits, and leaves `t` (44_trap
R133). -/
inductive PutsExits : State → Word → State → Prop where
  /-- The cell read is zero: the loop exits. -/
  | zero {s : State} {a : Word} (h : (s.memRead a).1 = 0x0000#16) : PutsExits s a (s.memRead a).2
  /-- It is not: its low byte is written and the loop goes on at the next cell. -/
  | pass {s : State} {a : Word} {t : State} (h : (s.memRead a).1 ≠ 0x0000#16)
      (rest : PutsExits ((s.memRead a).2.consoleWrite (lowByte (s.memRead a).1)) (a + 1#16) t) : PutsExits s a t

/-- From cell `a` on, outside KBSR, memory holds these characters, one non-zero cell each, then a zero cell: the string
of PUTS (44_trap R133). -/
def HoldsString (s : State) : Word → List Word → Prop
  | a, [] => a ≠ Config.kbsr ∧ s.cell a = 0#16
  | a, c :: cs => a ≠ Config.kbsr ∧ s.cell a = c ∧ c ≠ 0#16 ∧ HoldsString s (a + 1#16) cs

/-- From cell `a` on, outside KBSR, memory holds these non-zero bytes packed low byte first, ended by a zero byte: the
string of PUTSP (44_trap R135). -/
def HoldsPacked (s : State) : Word → List Byte → Prop
  | a, [] => a ≠ Config.kbsr ∧ lowByte (s.cell a) = 0#8
  | a, [b] => a ≠ Config.kbsr ∧ b ≠ 0#8 ∧ s.cell a = (0#8 ++ b : Word)
  | a, b :: c :: bs => a ≠ Config.kbsr ∧ b ≠ 0#8 ∧ c ≠ 0#8 ∧ s.cell a = (c ++ b : Word) ∧
      HoldsPacked s (a + 1#16) bs

end Sys2Proof.Machine
end

