-- ==== Sys2Proof/Certificates/Slice0/Obligations.lean ====
section
/-! DEFINITION. The statements for the provers. Each docstring names the rule it formalises. A word is put together
from its fields by `place` (field at bit position), the `x` of a format being a variable of the statement. -/

open Sys2Proof Sys2Proof.Machine

/-! ### Encoding (30_encoding.md) -/

/-- 30_encoding R62, R63, R64: no bit of an encoding is dropped. Rests on encoding: D1, D2, log 11; the encoder's
ignored bits: R67, D4, log 17; one constructor for each of the six rows of vectors without a routine: log 24. -/
def Obligations.DecodeInvertsEncode : Prop :=
  ∀ i : Instr, i.wellFormed = true → decode (encode i) = i

/-- 30_encoding R71 (an inference the spec marks as its own): every word matches exactly one row of the opcode table,
the row of the instruction it decodes to. Rests on encoding: D1, D2, log 11; ignored bits: R67, D4, log 17; one
constructor for each of the six rows of vectors without a routine: log 24. -/
def Obligations.EveryWordMatchesExactlyOneTableRow : Prop :=
  ∀ w : Word, (decode w).row ∈ opcodeTable ∧ (decode w).row.covers w = true ∧
    ∀ r ∈ opcodeTable, r.covers w = true → r = (decode w).row

/-- 30_encoding R63, R64: what a word decodes to is well formed, and encoding it gives back every bit a field covers.
Rests on encoding: D1, D2, log 11; the low bits of RTI and RES: D4, log 17; one constructor for each of the six rows
of vectors without a routine: log 24. -/
def Obligations.EncodeRestoresEveryFieldBit : Prop :=
  ∀ w : Word, (decode w).wellFormed = true ∧
    encode (decode w) &&& (decode w).fieldBits = w &&& (decode w).fieldBits

/-- 30_encoding R67: words that differ only in bits no field covers are the same instruction; for RTI and RES, whose
word the cause records (45_reserved R152), they leave states equal in everything but that record. Rests on ignored
bits: R67, D4, log 17; encoding: D1, D2, log 11; RTI and RES: D5, log 13, as next states, log 9; the stop cause:
D16, log 26. -/
def Obligations.IgnoredBitsChangeNothing : Prop :=
  (∀ w w' : Word, w &&& (decode w).fieldBits = w' &&& (decode w).fieldBits →
    decode w' = decode w ∨
    (∃ l l', decode w = .rti l ∧ decode w' = .rti l') ∨ (∃ l l', decode w = .res l ∧ decode w' = .res l')) ∧
  ∀ (l l' : BitVec 12) (s : State),
    (∃ t t', exec (.rti l) s = .next t ∧ exec (.rti l') s = .next t' ∧ { t' with cause := t.cause } = t) ∧
    (∃ t t', exec (.res l) s = .next t ∧ exec (.res l') s = .next t' ∧ { t' with cause := t.cause } = t)

/-- 30_encoding R65 and the words of 95_test_vectors, written out from the formats: they decode to what they stand for.
Rests on encoding: D1, D2, log 11; the low bits of RTI and RES: D4, log 17. -/
def Obligations.HandWrittenWordsDecode : Prop :=
  decode 0b0001000000100101#16 = .addImm .r0 .r0 5#5 ∧
  decode 0b1111000000100101#16 = .trapHalt ∧
  decode 0b0001010000000001#16 = .addReg .r2 .r0 .r1 ∧
  decode 0b0101011100000101#16 = .andReg .r3 .r4 .r5 ∧
  decode 0b1001001010111111#16 = .not .r1 .r2 ∧
  decode 0b0000010000000011#16 = .br false true false 3#9 ∧
  decode 0b1100000111000000#16 = .jmp .r7 ∧
  decode 0b0100100000010000#16 = .jsr 16#11 ∧
  decode 0b0100000011000000#16 = .jsrr .r3 ∧
  decode 0b1010010000000001#16 = .ldi .r2 1#9 ∧
  decode 0b0110011100111111#16 = .ldr .r3 .r4 0x3F#6 ∧
  decode 0b0111011100000011#16 = .str .r3 .r4 3#6 ∧
  decode 0b1000000000000000#16 = .rti 0#12 ∧
  decode 0b1101101010111100#16 = .res 0xABC#12

/-- 40_step R95 (and 00_scope R10): the signed value of an extended field is the two's-complement value of the field. -/
def Obligations.SignExtensionKeepsTheSignedValue : Prop :=
  ∀ (k : Nat) (f : BitVec k), 0 < k → k < 16 →
    (sext f).toInt = if f.toNat < 2 ^ (k - 1) then (f.toNat : Int) else (f.toNat : Int) - 2 ^ k

/-! ### Registers (10_state.md) -/

/-- 10_state R20: the 3-bit selectors name eight registers, each reads back what was last written to it, R0 too, and no
write to one shows in another. -/
def Obligations.RegistersReadBackWhatWasWritten : Prop :=
  ∀ (s : State) (b b' : BitVec 3) (v : Word),
    (s.setReg (Reg.ofBits b) v).reg (Reg.ofBits b') = if b' = b then v else s.reg (Reg.ofBits b')

/-! ### The step (40_step_and_flags.md, 60_exceptions.md) -/

/-- 40_step R90: at the top of a step with no stop request, the word at `pc` is fetched by MemRead, `pc` is incremented,
and the step is `exec` of the decoded instruction there. Rests on when the stop request is sampled: D17, log 7;
fetch and string cells polling at KBSR: R44, D11, log 16; a begun step as a state: logs 8, 21. -/
def Obligations.StepRunsTheDecodedInstruction : Prop :=
  ∀ (s : State) (i : Instr), s.AtTopOfStep → s.stopAsserted = false →
    decode (s.afterSample.memRead s.pc).1 = i →
    step s = exec i ((s.afterSample.memRead s.pc).2.setPc (s.pc + 1#16))

/-- 40_step R98: a step of a Stopped machine changes nothing, however often it is repeated. -/
def Obligations.StoppedIsTerminal : Prop :=
  ∀ (s : State) (n : Nat), s.run = .stopped → step s = .next s ∧ Host.Core.run Sys2Proof.core n s = .next s

/-- 60_exceptions R167: a stop request asserted at the top of a step stops the machine before the fetch and changes
nothing else; a step that has begun and not completed does not sample it. Rests on when the stop request is sampled:
D17, log 7; the stop cause: D16, log 26; a begun step as a state: logs 8, 21. -/
def Obligations.StopRequestIsSampledOnlyAtTheTop : Prop :=
  (∀ s : State, s.AtTopOfStep → s.stopAsserted = true →
    ∃ t, step s = .next t ∧ t.run = .stopped ∧ t.cause = some .stopRequest ∧ t.regs = s.regs ∧ t.pc = s.pc ∧
      t.cond = s.cond ∧ t.waiting = none ∧ t.mem = s.mem ∧ SameInput s t ∧ SameOutput s t ∧
      t.inPrompt = s.inPrompt) ∧
  ∀ (s : State) (w : PendingStep), s.run = .running → s.waiting = some w →
    ∃ t, step s = .next t ∧ t.run = .running ∧ t.stopSamples = s.stopSamples

/-- 40_step R93: setcc sets NEG if bit 15 of the register is 1, else ZRO if it is 0, else POS, and nothing else. -/
def Obligations.SetccFollowsTheSign : Prop :=
  ∀ (s : State) (r : Reg),
    (s.setcc r).cond =
      (if 0x8000 ≤ (s.reg r).toNat then Cond.neg else if (s.reg r).toNat = 0 then Cond.zro else Cond.pos) ∧
    { s.setcc r with cond := s.cond } = s

/-! ### ADD, AND, NOT (41_alu.md) -/

/-- 41_alu R100. Rests on field positions: D2, log 11; ignored bits: R67, D4, log 17. -/
def Obligations.AddRegisterForm : Prop :=
  ∀ (dr sr1 sr2 : Reg) (x : BitVec 2) (s : State),
    decode (place 12 0b0001#4 ||| place 9 dr.bits ||| place 6 sr1.bits ||| place 5 0#1 ||| place 3 x |||
      place 0 sr2.bits) = .addReg dr sr1 sr2 ∧
    ∃ t, exec (.addReg dr sr1 sr2) s = .next t ∧
      (t.reg dr).toNat = ((s.reg sr1).toNat + (s.reg sr2).toNat) % 65536 ∧
      t.cond = condOf (t.reg dr) ∧ t.pc = s.pc ∧ SameRegsBut [dr] s t ∧ SameOutsideRegs s t

/-- 41_alu R101. Rests on field positions: D2, log 11. -/
def Obligations.AddImmediateForm : Prop :=
  ∀ (dr sr1 : Reg) (imm : BitVec 5) (s : State),
    decode (place 12 0b0001#4 ||| place 9 dr.bits ||| place 6 sr1.bits ||| place 5 1#1 ||| place 0 imm) =
      .addImm dr sr1 imm ∧
    ∃ t, exec (.addImm dr sr1 imm) s = .next t ∧
      (t.reg dr).toNat = ((s.reg sr1).toNat + (sext imm).toNat) % 65536 ∧
      t.cond = condOf (t.reg dr) ∧ t.pc = s.pc ∧ SameRegsBut [dr] s t ∧ SameOutsideRegs s t

/-- 41_alu R102. Rests on encoding: D1, D2, log 11; ignored bits: R67, D4, log 17. -/
def Obligations.AndRegisterForm : Prop :=
  ∀ (dr sr1 sr2 : Reg) (x : BitVec 2) (s : State),
    decode (place 12 0b0101#4 ||| place 9 dr.bits ||| place 6 sr1.bits ||| place 5 0#1 ||| place 3 x |||
      place 0 sr2.bits) = .andReg dr sr1 sr2 ∧
    ∃ t, exec (.andReg dr sr1 sr2) s = .next t ∧
      (∀ k, k < 16 → (t.reg dr).getLsbD k = ((s.reg sr1).getLsbD k && (s.reg sr2).getLsbD k)) ∧
      t.cond = condOf (t.reg dr) ∧ t.pc = s.pc ∧ SameRegsBut [dr] s t ∧ SameOutsideRegs s t

/-- 41_alu R103. Rests on encoding: D1, D2, log 11. -/
def Obligations.AndImmediateForm : Prop :=
  ∀ (dr sr1 : Reg) (imm : BitVec 5) (s : State),
    decode (place 12 0b0101#4 ||| place 9 dr.bits ||| place 6 sr1.bits ||| place 5 1#1 ||| place 0 imm) =
      .andImm dr sr1 imm ∧
    ∃ t, exec (.andImm dr sr1 imm) s = .next t ∧
      (∀ k, k < 16 → (t.reg dr).getLsbD k = ((s.reg sr1).getLsbD k && (sext imm).getLsbD k)) ∧
      t.cond = condOf (t.reg dr) ∧ t.pc = s.pc ∧ SameRegsBut [dr] s t ∧ SameOutsideRegs s t

/-- 41_alu R104. Rests on encoding: D1, D2, log 11; ignored bits: R67, D4, log 17. -/
def Obligations.NotComplements : Prop :=
  ∀ (dr sr : Reg) (x : BitVec 6) (s : State),
    decode (place 12 0b1001#4 ||| place 9 dr.bits ||| place 6 sr.bits ||| place 0 x) = .not dr sr ∧
    ∃ t, exec (.not dr sr) s = .next t ∧ (t.reg dr).toNat = 65535 - (s.reg sr).toNat ∧
      t.cond = condOf (t.reg dr) ∧ t.pc = s.pc ∧ SameRegsBut [dr] s t ∧ SameOutsideRegs s t

/-! ### BR, JMP, JSR, JSRR (42_control.md) -/

/-- 42_control R110; with the one-hot numbers of 10_state R24 the test is `(instr[11:9] AND cond[2:0]) != 0`. Rests on
encoding: D1, D2, log 11; the flags: D3, log 10. -/
def Obligations.BranchIsTakenOnItsFlags : Prop :=
  ∀ (n z p : Bool) (off : BitVec 9) (s : State),
    decode (place 12 0b0000#4 ||| place 11 (BitVec.ofBool n) ||| place 10 (BitVec.ofBool z) |||
      place 9 (BitVec.ofBool p) ||| place 0 off) = .br n z p off ∧
    (branchTaken n z p s.cond = true ↔
      (n = true ∧ s.cond = .neg) ∨ (z = true ∧ s.cond = .zro) ∨ (p = true ∧ s.cond = .pos)) ∧
    (branchTaken n z p s.cond = true ↔
      (place 2 (BitVec.ofBool n) ||| place 1 (BitVec.ofBool z) ||| place 0 (BitVec.ofBool p)) &&& s.cond.bits ≠ 0#16) ∧
    ∃ t, exec (.br n z p off) s = .next t ∧
      t.pc.toNat = (if branchTaken n z p s.cond = true then (s.pc.toNat + (sext off).toNat) % 65536 else s.pc.toNat) ∧
      t.cond = s.cond ∧ t.regs = s.regs ∧ SameOutsideRegs s t

/-- 42_control R111. Rests on encoding: D1, D2, log 11; ignored bits: R67, D4, log 17. -/
def Obligations.JmpLoadsPcFromTheBase : Prop :=
  ∀ (base : Reg) (x : BitVec 3) (y : BitVec 6) (s : State),
    decode (place 12 0b1100#4 ||| place 9 x ||| place 6 base.bits ||| place 0 y) = .jmp base ∧
    ∃ t, exec (.jmp base) s = .next t ∧ t.pc = s.reg base ∧ t.cond = s.cond ∧ t.regs = s.regs ∧ SameOutsideRegs s t

/-- 42_control R112. Rests on encoding: D1, D2, log 11. -/
def Obligations.JsrLinksAndJumps : Prop :=
  ∀ (off : BitVec 11) (s : State),
    decode (place 12 0b0100#4 ||| place 11 1#1 ||| place 0 off) = .jsr off ∧
    ∃ t, exec (.jsr off) s = .next t ∧ t.reg .r7 = s.pc ∧
      t.pc.toNat = (s.pc.toNat + (sext off).toNat) % 65536 ∧ t.cond = s.cond ∧ SameRegsBut [.r7] s t ∧
      SameOutsideRegs s t

/-- 42_control R113: R7 is written before the base register is read. Rests on JSRR R7: D18, log 14; encoding: D1, D2,
log 11; ignored bits: R67, D4, log 17. -/
def Obligations.JsrrLinksThenReadsTheBase : Prop :=
  ∀ (base : Reg) (x : BitVec 2) (y : BitVec 6) (s : State),
    decode (place 12 0b0100#4 ||| place 11 0#1 ||| place 9 x ||| place 6 base.bits ||| place 0 y) = .jsrr base ∧
    ∃ t, exec (.jsrr base) s = .next t ∧ t.reg .r7 = s.pc ∧
      t.pc = (if base = .r7 then s.pc else s.reg base) ∧ t.cond = s.cond ∧ SameRegsBut [.r7] s t ∧
      SameOutsideRegs s t

/-! ### LD, LDI, LDR, LEA, ST, STI, STR (43_load_store.md) -/

/-- 43_load_store R120. Rests on encoding: D1, D2, log 11; what a poll leaves in KBSR and KBDR: R43, D9, D10, log 16;
arrivals: R37, log 6; canonical memory: log 1. -/
def Obligations.LdLoadsTheCell : Prop :=
  ∀ (dr : Reg) (off : BitVec 9) (s : State), s.mem.wf →
    decode (place 12 0b0010#4 ||| place 9 dr.bits ||| place 0 off) = .ld dr off ∧
    ∃ t, exec (.ld dr off) s = .next t ∧ ReadsCell s (s.pc + sext off) (t.reg dr) t ∧
      t.cond = condOf (t.reg dr) ∧ t.pc = s.pc ∧ SameRegsBut [dr] s t ∧ SameOutput s t ∧ SameRun s t ∧
      SameLaunch s t

/-- 43_load_store R121: exactly one indirection, the pointer read first. Rests on encoding: D1, D2, log 11; what a poll
leaves in KBSR and KBDR: R43, D9, D10, log 16; arrivals: R37, log 6; canonical memory: log 1. -/
def Obligations.LdiLoadsThroughThePointer : Prop :=
  ∀ (dr : Reg) (off : BitVec 9) (s : State), s.mem.wf →
    decode (place 12 0b1010#4 ||| place 9 dr.bits ||| place 0 off) = .ldi dr off ∧
    ∃ t ptr u, ReadsCell s (s.pc + sext off) ptr u ∧ exec (.ldi dr off) s = .next t ∧ ReadsCell u ptr (t.reg dr) t ∧
      t.cond = condOf (t.reg dr) ∧ t.pc = s.pc ∧ SameRegsBut [dr] s t ∧ SameOutput s t ∧ SameRun s t ∧
      SameLaunch s t

/-- 43_load_store R122: the base is read before DR is written. Rests on encoding: D1, D2, log 11; what a poll leaves in
KBSR and KBDR: R43, D9, D10, log 16; arrivals: R37, log 6; canonical memory: log 1. -/
def Obligations.LdrLoadsTheCell : Prop :=
  ∀ (dr base : Reg) (off : BitVec 6) (s : State), s.mem.wf →
    decode (place 12 0b0110#4 ||| place 9 dr.bits ||| place 6 base.bits ||| place 0 off) = .ldr dr base off ∧
    ∃ t, exec (.ldr dr base off) s = .next t ∧ ReadsCell s (s.reg base + sext off) (t.reg dr) t ∧
      t.cond = condOf (t.reg dr) ∧ t.pc = s.pc ∧ SameRegsBut [dr] s t ∧ SameOutput s t ∧ SameRun s t ∧
      SameLaunch s t

/-- 43_load_store R123: the address itself and its flags; no access, so no poll. Rests on encoding: D1, D2, log 11. -/
def Obligations.LeaYieldsTheAddress : Prop :=
  ∀ (dr : Reg) (off : BitVec 9) (s : State),
    decode (place 12 0b1110#4 ||| place 9 dr.bits ||| place 0 off) = .lea dr off ∧
    ∃ t, exec (.lea dr off) s = .next t ∧ (t.reg dr).toNat = (s.pc.toNat + (sext off).toNat) % 65536 ∧
      t.cond = condOf (t.reg dr) ∧ t.pc = s.pc ∧ SameRegsBut [dr] s t ∧ SameOutsideRegs s t

/-- 43_load_store R124. Rests on encoding: D1, D2, log 11; canonical memory: log 1. -/
def Obligations.StStoresTheRegister : Prop :=
  ∀ (sr : Reg) (off : BitVec 9) (s : State), s.mem.wf →
    decode (place 12 0b0011#4 ||| place 9 sr.bits ||| place 0 off) = .st sr off ∧
    ∃ t, exec (.st sr off) s = .next t ∧
      (∀ a, t.cell a = if a = s.pc + sext off then s.reg sr else s.cell a) ∧
      t.regs = s.regs ∧ t.pc = s.pc ∧ t.cond = s.cond ∧ SameInput s t ∧ SameOutput s t ∧ SameRun s t ∧ SameLaunch s t

/-- 43_load_store R125: one read of the pointer, then one write, which never polls. Rests on encoding: D1, D2, log 11;
what a poll leaves in KBSR and KBDR: R43, D9, D10, log 16; arrivals: R37, log 6; canonical memory: log 1. -/
def Obligations.StiStoresThroughThePointer : Prop :=
  ∀ (sr : Reg) (off : BitVec 9) (s : State), s.mem.wf →
    decode (place 12 0b1011#4 ||| place 9 sr.bits ||| place 0 off) = .sti sr off ∧
    ∃ t ptr u, ReadsCell s (s.pc + sext off) ptr u ∧ exec (.sti sr off) s = .next t ∧
      (∀ a, t.cell a = if a = ptr then s.reg sr else u.cell a) ∧ SameInput u t ∧
      t.regs = s.regs ∧ t.pc = s.pc ∧ t.cond = s.cond ∧ SameOutput s t ∧ SameRun s t ∧ SameLaunch s t

/-- 43_load_store R126. Rests on encoding: D1, D2, log 11; canonical memory: log 1. -/
def Obligations.StrStoresTheRegister : Prop :=
  ∀ (sr base : Reg) (off : BitVec 6) (s : State), s.mem.wf →
    decode (place 12 0b0111#4 ||| place 9 sr.bits ||| place 6 base.bits ||| place 0 off) = .str sr base off ∧
    ∃ t, exec (.str sr base off) s = .next t ∧
      (∀ a, t.cell a = if a = s.reg base + sext off then s.reg sr else s.cell a) ∧
      t.regs = s.regs ∧ t.pc = s.pc ∧ t.cond = s.cond ∧ SameInput s t ∧ SameOutput s t ∧ SameRun s t ∧ SameLaunch s t

/-! ### TRAP (44_trap.md) -/

/-- 44_trap R130: every TRAP dispatches on its vector alone, writes the incremented pc to R7, leaves `pc` and `cond`,
writes no other register but R0 in GETC and IN, and changes no cell but, by reading, the keyboard's. Rests on
ignored bits: R67, D4, log 17; a TRAP without a routine: D6, log 12; one constructor for each of the six rows of
vectors without a routine: log 24; fetch and string cells polling at KBSR: R44, D11, log 16; a wait as a state: D22,
log 8; the bound of the model's loop: log 21; canonical memory: log 1. -/
def Obligations.EveryTrapLinksAndStays : Prop :=
  (∀ (x : BitVec 4) (v : Byte),
    decode (place 12 0b1111#4 ||| place 8 x ||| place 0 v) =
      (if v = 0x20#8 then .trapGetc else if v = 0x21#8 then .trapOut else if v = 0x22#8 then .trapPuts
      else if v = 0x23#8 then .trapIn else if v = 0x24#8 then .trapPutsp else if v = 0x25#8 then .trapHalt
      else decode (place 12 0b1111#4 ||| place 0 v)) ∧
    (v.toNat < 0x20 ∨ 0x25 < v.toNat →
      decode (place 12 0b1111#4 ||| place 0 v) ∈
        [.trapNone80 v, .trapNone40 v, .trapNone00 v, .trapNone30 v, .trapNone28 v, .trapNone26 v])) ∧
  ∀ (i : Instr) (s t : State), isTrap i = true → s.mem.wf → exec i s = .next t →
    t.reg .r7 = s.pc ∧ t.pc = s.pc ∧ t.cond = s.cond ∧
      (∀ r, r ≠ .r7 → (r ≠ .r0 ∨ (i ≠ .trapGetc ∧ i ≠ .trapIn)) → t.reg r = s.reg r) ∧
      SameMemoryButKeyboard s t ∧ (i ≠ .trapHalt → t.run = s.run ∧ t.cause = s.cause) ∧ SameLaunch s t

/-- 44_trap R131: with a character pending GETC consumes it into R0, zero-extended; with none the step waits, R7 already
written and R0 not. Rests on the TRAP format: R130; ignored bits: R67, D4, log 17; a wait as a state: D22, log 8;
zero-extension of a character: D9, log 16; arrivals: R37, log 6. -/
def Obligations.GetcReadsOneCharacter : Prop :=
  ∀ (x : BitVec 4) (s : State),
    decode (place 12 0b1111#4 ||| place 8 x ||| place 0 0x20#8) = .trapGetc ∧
    (∀ c cs, s.incoming = c :: cs →
      ∃ t, exec .trapGetc s = .next t ∧ (t.reg .r0).toNat = c.toNat ∧ t.reg .r7 = s.pc ∧ SameRegsBut [.r0, .r7] s t ∧
        t.pc = s.pc ∧ t.cond = s.cond ∧ t.mem = s.mem ∧ t.consoleIn = cs ∧ t.arrivals = s.arrivals.tail ∧
        SameOutput s t ∧ t.waiting = none ∧ t.run = s.run ∧ t.cause = s.cause ∧ SameLaunch s t) ∧
    (s.incoming = [] →
      ∃ t, exec .trapGetc s = .next t ∧ t.waiting = some .getc ∧ t.run = s.run ∧ t.cause = s.cause ∧
        t.reg .r7 = s.pc ∧ SameRegsBut [.r7] s t ∧ t.pc = s.pc ∧ t.cond = s.cond ∧ t.mem = s.mem ∧
        t.consoleIn = [] ∧ t.arrivals = s.arrivals.tail ∧ SameOutput s t ∧ SameLaunch s t)

/-- 44_trap R132. Rests on the TRAP format: R130; ignored bits: R67, D4, log 17. -/
def Obligations.OutWritesTheLowByteOfR0 : Prop :=
  ∀ (x : BitVec 4) (s : State),
    decode (place 12 0b1111#4 ||| place 8 x ||| place 0 0x21#8) = .trapOut ∧
    ∃ t b, exec .trapOut s = .next t ∧ t.consoleOut = s.consoleOut ++ [b] ∧ b.toNat = (s.reg .r0).toNat % 256 ∧
      t.reg .r7 = s.pc ∧ SameRegsBut [.r7] s t ∧ t.pc = s.pc ∧ t.cond = s.cond ∧ t.mem = s.mem ∧ SameInput s t ∧
      t.flushed = s.flushed ∧ SameRun s t ∧ SameLaunch s t

/-- 44_trap R133, 70_reset R185, U14: PUTS is the rule's loop. If the loop exits in `t`, the step completes in `t`,
after as many steps of the model as it takes, no stop request sampled and the step never complete before; if it
never exits, the step never completes. Rests on which byte PUTS writes and what ends it: D12, log 15; fetch and
string cells polling at KBSR: R44, D11, log 16; what a poll leaves in KBSR and KBDR: R43, D9, D10, log 16; arrivals:
R37, log 6; a begun step as a state: logs 8, 21; when the stop request is sampled: D17, log 7. -/
def Obligations.PutsIsTheLoopOfItsRule : Prop :=
  ∀ s : State, s.run = .running → s.waiting = none →
    ∃ u, exec .trapPuts s = .next u ∧
      (∀ t, PutsExits s.link (s.reg .r0) t →
        ∃ n, Host.Core.run Sys2Proof.core n u = .next t ∧ t.run = .running ∧ t.waiting = none ∧
          t.stopSamples = s.stopSamples ∧
          ∀ m, m < n → ∃ v a, Host.Core.run Sys2Proof.core m u = .next v ∧ v.run = .running ∧
            v.waiting = some (.puts a) ∧ v.stopSamples = s.stopSamples) ∧
      ((¬∃ t, PutsExits s.link (s.reg .r0) t) →
        ∀ m, ∃ v a, Host.Core.run Sys2Proof.core m u = .next v ∧ v.run = .running ∧ v.waiting = some (.puts a) ∧
          v.stopSamples = s.stopSamples)

/-- 44_trap R133 ("the routine never ends"), 70_reset R185, R187 (f): with no zero cell in memory, and a key pending at
each pass of KBSR, PUTS never completes: the machine stays Running in that step, and the output grows by one byte a
cell each time around. Rests on which byte PUTS writes and what ends it: D12, log 15; fetch and string cells polling
at KBSR: R44, D11, log 16; what a poll leaves in KBSR and KBDR: R43, D9, D10, log 16; arrivals: R37, log 6; a begun
step as a state: logs 8, 21; when the stop request is sampled: D17, log 7; canonical memory: log 1. -/
def Obligations.PutsWithoutATerminatorNeverEnds : Prop :=
  ∀ s : State, s.run = .running → s.waiting = none → s.mem.wf → (∀ a, a ≠ Config.kbsr → s.cell a ≠ 0x0000#16) →
    (∀ c ∈ s.consoleIn, c ≠ 0x00#8) →
    (∀ k, (s.arrivals.drop k).head ≠ [] ∧ ∀ c ∈ (s.arrivals.drop k).head, c ≠ 0x00#8) →
    ∃ u, exec .trapPuts s = .next u ∧ ∀ n, ∃ v, Host.Core.run Sys2Proof.core n u = .next v ∧ v.run = .running ∧
      v.waiting = some (.puts (s.reg .r0)) ∧ v.stopSamples = s.stopSamples ∧
      v.consoleOut.length = s.consoleOut.length + 65536 * (n + 1)

/-- 44_trap R133: a string ended by a zero cell, not reaching KBSR, is written one low byte a cell, the terminator not
written. Rests on the TRAP format: R130; ignored bits: R67, D4, log 17; which byte PUTS writes and what ends it:
D12, log 15; the bound of the model's loop: log 21. -/
def Obligations.PutsWritesTheString : Prop :=
  ∀ (x : BitVec 4) (s : State) (str : List Word), HoldsString s (s.reg .r0) str →
    decode (place 12 0b1111#4 ||| place 8 x ||| place 0 0x22#8) = .trapPuts ∧
    ∃ t, exec .trapPuts s = .next t ∧ t.consoleOut = s.consoleOut ++ str.map lowByte ∧
      t.reg .r7 = s.pc ∧ SameRegsBut [.r7] s t ∧ t.pc = s.pc ∧ t.cond = s.cond ∧ t.mem = s.mem ∧ SameInput s t ∧
      t.flushed = s.flushed ∧ SameRun s t ∧ SameLaunch s t

/-- 44_trap R134: IN writes the prompt, reads one character, echoes it and puts it in R0; with no character pending the
step waits, the prompt already written. Rests on the TRAP format: R130; ignored bits: R67, D4, log 17; the prompt:
D14, log 4; a wait as a state: D22, log 8; zero-extension of a character: D9, log 16; arrivals: R37, log 6. -/
def Obligations.InPromptsReadsAndEchoes : Prop :=
  ∀ (x : BitVec 4) (s : State),
    decode (place 12 0b1111#4 ||| place 8 x ||| place 0 0x23#8) = .trapIn ∧
    (∀ c cs, s.incoming = c :: cs →
      ∃ t, exec .trapIn s = .next t ∧ t.consoleOut = s.consoleOut ++ s.inPrompt ++ [c] ∧
        (t.reg .r0).toNat = c.toNat ∧ t.reg .r7 = s.pc ∧ SameRegsBut [.r0, .r7] s t ∧
        t.pc = s.pc ∧ t.cond = s.cond ∧ t.mem = s.mem ∧ t.consoleIn = cs ∧ t.arrivals = s.arrivals.tail ∧
        t.flushed = s.flushed ∧ t.waiting = none ∧ t.run = s.run ∧ t.cause = s.cause ∧ SameLaunch s t) ∧
    (s.incoming = [] →
      ∃ t, exec .trapIn s = .next t ∧ t.consoleOut = s.consoleOut ++ s.inPrompt ∧ t.waiting = some .inn ∧
        t.run = s.run ∧ t.cause = s.cause ∧ t.reg .r7 = s.pc ∧ SameRegsBut [.r7] s t ∧ t.pc = s.pc ∧
        t.cond = s.cond ∧ t.mem = s.mem ∧ t.consoleIn = [] ∧ t.arrivals = s.arrivals.tail ∧
        t.flushed = s.flushed ∧ SameLaunch s t)

/-- 44_trap R135: PUTSP is the rule's loop, with no bound on the cells it reads. Rests on where PUTSP ends: D13, log 15;
the bound of the model's loop: log 21; fetch and string cells polling at KBSR: R44, D11, log 16; what a poll leaves
in KBSR and KBDR: R43, D9, D10, log 16; arrivals: R37, log 6; canonical memory: log 1. -/
def Obligations.PutspIsTheLoopOfItsRule : Prop :=
  (∀ s : State, exec .trapPutsp s = .next (s.link.putsp (s.reg .r0))) ∧
  ∀ (s : State) (a : Word), s.mem.wf →
    s.putsp a =
      if lowByte (s.memRead a).1 = 0x00#8 then (s.memRead a).2
      else if highByte (s.memRead a).1 = 0x00#8 then (s.memRead a).2.consoleWrite (lowByte (s.memRead a).1)
      else (((s.memRead a).2.consoleWrite (lowByte (s.memRead a).1)).consoleWrite (highByte (s.memRead a).1)).putsp
        (a + 1#16)

/-- 44_trap R135: a packed string, low byte first, ended by its first zero byte and not reaching KBSR, is written byte
by byte. Rests on the TRAP format: R130; ignored bits: R67, D4, log 17; where PUTSP ends: D13, log 15; the bound of
the model's loop: log 21. -/
def Obligations.PutspWritesThePackedString : Prop :=
  ∀ (x : BitVec 4) (s : State) (str : List Byte), HoldsPacked s (s.reg .r0) str →
    decode (place 12 0b1111#4 ||| place 8 x ||| place 0 0x24#8) = .trapPutsp ∧
    ∃ t, exec .trapPutsp s = .next t ∧ t.consoleOut = s.consoleOut ++ str ∧
      t.reg .r7 = s.pc ∧ SameRegsBut [.r7] s t ∧ t.pc = s.pc ∧ t.cond = s.cond ∧ t.mem = s.mem ∧ SameInput s t ∧
      t.flushed = s.flushed ∧ SameRun s t ∧ SameLaunch s t

/-- 44_trap R136: HALT flushes the output and stops with cause Halt; it writes nothing to the console. Rests on the TRAP
format: R130; ignored bits: R67, D4, log 17; no message of HALT: D15, log 23; the flush mark: log 18; the stop
cause: D16, log 26. -/
def Obligations.HaltFlushesAndStops : Prop :=
  ∀ (x : BitVec 4) (s : State),
    decode (place 12 0b1111#4 ||| place 8 x ||| place 0 0x25#8) = .trapHalt ∧
    ∃ t, exec .trapHalt s = .next t ∧ t.run = .stopped ∧ t.cause = some .halt ∧ t.consoleOut = s.consoleOut ∧
      t.flushed = t.consoleOut.length ∧ t.reg .r7 = s.pc ∧ SameRegsBut [.r7] s t ∧ t.pc = s.pc ∧ t.cond = s.cond ∧
      t.mem = s.mem ∧ SameInput s t ∧ t.waiting = s.waiting ∧ SameLaunch s t

/-- 44_trap R137: a TRAP whose vector has no routine writes R7 and does nothing more, whichever of the six table rows it
is of. Rests on a TRAP without a routine: D6, log 12; one constructor for each of the six rows of vectors without a
routine: log 24. -/
def Obligations.TrapWithoutRoutineOnlyLinks : Prop :=
  ∀ (v : Byte) (s : State) (i : Instr),
    i ∈ [.trapNone80 v, .trapNone40 v, .trapNone00 v, .trapNone30 v, .trapNone28 v, .trapNone26 v] →
    ∃ t, exec i s = .next t ∧ t.reg .r7 = s.pc ∧ t.pc = s.pc ∧ t.cond = s.cond ∧ SameRegsBut [.r7] s t ∧
      SameOutsideRegs s t

/-! ### RTI, RES (45_reserved.md) -/

/-- 45_reserved R150, R152: RTI stops with the opcode, the word and the address it was fetched from; nothing else
changes. Rests on RTI and RES: D5, log 13, as next states, log 9; opcode numbers: D1, log 11; the low bits of RTI
and RES: D4, log 17; the stop cause: D16, log 26. -/
def Obligations.RtiTakesUnsupportedInstruction : Prop :=
  ∀ (low : BitVec 12) (s : State),
    decode (place 12 0b1000#4 ||| place 0 low) = .rti low ∧
    ∃ t, exec (.rti low) s = .next t ∧ t.run = .stopped ∧
      t.cause = some (.unsupportedInstruction 0x8#4 (place 12 0b1000#4 ||| place 0 low) (s.pc - 1#16)) ∧
      t.regs = s.regs ∧ t.pc = s.pc ∧ t.cond = s.cond ∧ t.mem = s.mem ∧ SameInput s t ∧ SameOutput s t ∧
      t.waiting = s.waiting ∧ SameLaunch s t

/-- 45_reserved R151, R152: RES stops with the opcode, the word and the address it was fetched from; nothing else
changes. Rests on RTI and RES: D5, log 13, as next states, log 9; opcode numbers: D1, log 11; the low bits of RTI
and RES: D4, log 17; the stop cause: D16, log 26. -/
def Obligations.ResTakesUnsupportedInstruction : Prop :=
  ∀ (low : BitVec 12) (s : State),
    decode (place 12 0b1101#4 ||| place 0 low) = .res low ∧
    ∃ t, exec (.res low) s = .next t ∧ t.run = .stopped ∧
      t.cause = some (.unsupportedInstruction 0xD#4 (place 12 0b1101#4 ||| place 0 low) (s.pc - 1#16)) ∧
      t.regs = s.regs ∧ t.pc = s.pc ∧ t.cond = s.cond ∧ t.mem = s.mem ∧ SameInput s t ∧ SameOutput s t ∧
      t.waiting = s.waiting ∧ SameLaunch s t

/-- 60_exceptions R160, R164, 45_reserved R152: a step that fetches a word of opcode 1000 or 1101 stops with the opcode,
the word itself and the address it was fetched from; it changes nothing but `pc` and what the fetch changes. Rests
on RTI and RES: D5, log 13, as next states, log 9; opcode numbers: D1, log 11; the low bits of RTI and RES: D4, log
17; the stop cause: D16, log 26; when the stop request is sampled: D17, log 7; fetch and string cells polling at
KBSR: R44, D11, log 16; a begun step as a state: logs 8, 21; canonical memory: log 1. -/
def Obligations.UnsupportedWordIsRecordedWhole : Prop :=
  ∀ (s : State) (w : Word) (u : State), s.AtTopOfStep → s.stopAsserted = false → s.mem.wf →
    s.afterSample.memRead s.pc = (w, u) → (opcodeBits w = 0x8#4 ∨ opcodeBits w = 0xD#4) →
    ∃ t, step s = .next t ∧ t.run = .stopped ∧ t.cause = some (.unsupportedInstruction (opcodeBits w) w s.pc) ∧
      t.pc = s.pc + 1#16 ∧ t.regs = s.regs ∧ t.cond = s.cond ∧ t.mem = u.mem ∧ SameInput u t ∧ SameOutput s t ∧
      t.waiting = none ∧ t.inPrompt = s.inPrompt

/-! ### Memory (20_memory.md) -/

/-- 20_memory R41: MemWrite stores to the cell, KBSR and KBDR too, and does nothing else; the memory list stays
canonical. Rests on canonical memory: log 1. -/
def Obligations.MemWriteStoresOneCell : Prop :=
  ∀ (s : State) (addr v : Word), s.mem.wf →
    (∀ a, (s.memWrite addr v).cell a = if a = addr then v else s.cell a) ∧ (s.memWrite addr v).mem.wf ∧
      { s.memWrite addr v with mem := s.mem } = s

/-- 20_memory R42, R43: MemRead is plain but at KBSR, where it polls the keyboard first. Rests on what a poll leaves in
KBSR and KBDR: R43, D9, D10, log 16; arrivals: R37, log 6; canonical memory: log 1. -/
def Obligations.MemReadPollsOnlyAtKbsr : Prop :=
  ∀ (s : State) (addr : Word), s.mem.wf →
    ReadsCell s addr (s.memRead addr).1 (s.memRead addr).2 ∧ (s.memRead addr).2.mem.wf ∧
      { (s.memRead addr).2 with mem := s.mem, consoleIn := s.consoleIn, arrivals := s.arrivals } = s

/-- 20_memory R47: a read after a write returns the value written, at KBDR unless a poll that found a key came between
(an inference the spec marks as its own), and never at KBSR, where it returns the poll's result. Rests on the poll
results 0x0000 and 0x8000: R43, D10, log 16; arrivals: R37, log 6; canonical memory: log 1. -/
def Obligations.ReadAfterWriteReturnsTheValue : Prop :=
  ∀ (s : State) (a v : Word), s.mem.wf →
    (a ≠ Config.kbsr → ((s.memWrite a v).memRead a).1 = v) ∧
    (∀ b, a ≠ Config.kbsr → (a ≠ Config.kbdr ∨ b ≠ Config.kbsr ∨ s.incoming = []) →
      ((s.memWrite a v).memRead b).2.cell a = v) ∧
    (a = Config.kbsr → ((s.memWrite a v).memRead a).1 = if s.incoming = [] then 0x0000#16 else 0x8000#16)

/-- The canonical form, the model's own: memories that read alike are the same list. Rests on canonical memory: log 1;
unlisted cells: log 3. -/
def Obligations.MemoriesThatReadAlikeAreEqual : Prop :=
  ∀ m m' : Memory, m.wf → m'.wf → (∀ a : Word, m.get a.toNat = m'.get a.toNat) → m = m'

/-- 20_memory R57 (an inference the spec marks as its own): the next fetch sees a store at once; ST with offset 0
replaces the next instruction. Rests on fetch and string cells polling at KBSR: R44, D11, log 16; canonical memory:
log 1. -/
def Obligations.NextFetchSeesTheStore : Prop :=
  ∀ (s : State) (sr : Reg), s.mem.wf → s.pc ≠ Config.kbsr →
    ∃ t, exec (.st sr 0#9) s = .next t ∧ t.pc = s.pc ∧ t.fetchWord = s.reg sr

/-! ### Whole-machine rules -/

/-- 20_memory R40, 60_exceptions R160: no step faults and no step is refused, in any state. Rests on RTI and RES: D5,
log 13, as next states, log 9; a TRAP without a routine: D6, log 12; a wait as a state: D22, log 8; a begun step as
a state: logs 8, 21. -/
def Obligations.EveryStepAnswersNext : Prop :=
  ∀ s : State, ∃ t, step s = .next t

/-- Every step keeps the invariant: canonical memory, a cause exactly when Stopped (10_state R26), a begun step only
while Running (40_step R92), no more flushed than written and everything flushed after HALT (44_trap R136), a
recorded unsupported word with its opcode, 8 or 13 (10_state R26). Rests on canonical memory: log 1; the stop cause:
D16, log 26; a begun step as a state: logs 8, 21; the flush mark: log 18; RTI and RES: D5, log 13, as next states,
log 9; opcode numbers: D1, log 11. -/
def Obligations.EveryStepKeepsTheInvariant : Prop :=
  ∀ s t : State, s.Inv → step s = .next t → t.Inv

/-- The invariant holds after reset (70_reset R180, R181; run and cause: 10_state R32), whatever the launch arguments.
Rests on canonical memory: log 1; no begun step at reset: log 8; the flush mark 0: log 18; the launch arguments
`State.reset` takes where the spec leaves them open: logs 2, 3, 4, 5, 7; START_ADDRESS: D8, log 22; the stop cause:
D16, log 26. -/
def Obligations.LaunchMeetsTheInvariant : Prop :=
  State.reset.Inv ∧
  ∀ (start : Word) (regs : RegFile) (mem : Memory) (prompt input : List Byte) (arrivals : Arrivals)
    (stops : List Bool), mem.wf → (State.launch start regs mem prompt input arrivals stops).Inv

/-- 10_state R26, 40_step R97: Stopped is reached only by TRAP HALT, by the stop request, or by RTI or RES. Rests on the
stop cause: D16, log 26; RTI and RES: D5, log 13, as next states, log 9; when the stop request is sampled: D17, log
7; fetch and string cells polling at KBSR: R44, D11, log 16; a begun step as a state: logs 8, 21. -/
def Obligations.StoppedIsReachedInThreeWays : Prop :=
  ∀ s t : State, s.run = .running → step s = .next t → t.run = .stopped →
    s.waiting = none ∧
    ((s.stopAsserted = true ∧ t.cause = some .stopRequest) ∨
     (s.stopAsserted = false ∧ decode s.afterSample.fetchWord = .trapHalt ∧ t.cause = some .halt) ∨
     (s.stopAsserted = false ∧ (∃ l, decode s.afterSample.fetchWord = .rti l ∨ decode s.afterSample.fetchWord = .res l) ∧
       ∃ op instr addr, t.cause = some (.unsupportedInstruction op instr addr)))

/-- 10_state R22 (an inference the spec marks as its own): an instruction writes no general register but those its row
of the table lists. Rests on RTI and RES: D5, log 13, as next states, log 9; a TRAP without a routine: D6, log 12; a
wait as a state: D22, log 8. -/
def Obligations.RegisterWritesFollowTheTable : Prop :=
  ∀ (i : Instr) (s t : State), exec i s = .next t → SameRegsBut (registersWritten i) s t

/-- 40_step R93, 10_state R25: ADD, AND, NOT, LD, LDI, LDR and LEA end with setcc of their DR, and no other instruction
writes `cond`. Rests on RTI and RES: D5, log 13, as next states, log 9; a TRAP without a routine: D6, log 12. -/
def Obligations.OnlyFlagDefiningInstructionsWriteCond : Prop :=
  ∀ (i : Instr) (s t : State), exec i s = .next t →
    (definesFlags i = true → ∃ dr, registersWritten i = [dr] ∧
      t.cond =
        (if 0x8000 ≤ (t.reg dr).toNat then Cond.neg else if (t.reg dr).toNat = 0 then Cond.zro else Cond.pos)) ∧
    (definesFlags i = false → t.cond = s.cond)

/-- 10_state R28: how each instruction changes the incremented `pc`; only BR, JMP, JSR and JSRR do. JSRR loads the
register as it is after the link (42_control R113). Rests on JSRR R7: D18, log 14; RTI and RES: D5, log 13, as next
states, log 9; a TRAP without a routine: D6, log 12; the flags: D3, log 10. -/
def Obligations.OnlyControlTransferMovesPc : Prop :=
  ∀ (i : Instr) (s t : State), exec i s = .next t →
    (movesPc i = false → t.pc = s.pc) ∧
    (∀ n z p off, i = .br n z p off →
      t.pc = if branchTaken n z p s.cond = true then s.pc + sext off else s.pc) ∧
    (∀ base, i = .jmp base → t.pc = s.reg base) ∧
    (∀ off, i = .jsr off → t.pc = s.pc + sext off) ∧
    ∀ base, i = .jsrr base → t.pc = t.reg base

/-- 20_memory R45, R43: only ST, STI and STR write memory; any other instruction can change the two keyboard cells by
reading KBSR, and no other cell. Rests on fetch and string cells polling at KBSR: R44, D11, log 16; RTI and RES: D5,
log 13, as next states, log 9; a TRAP without a routine: D6, log 12; canonical memory: log 1. -/
def Obligations.OnlyStoresWriteMemory : Prop :=
  ∀ (i : Instr) (s t : State), s.mem.wf → exec i s = .next t → storesMemory i = false → SameMemoryButKeyboard s t

/-- 44_trap R139: the output stream only grows, and only OUT, PUTS, IN and PUTSP (the echo of an IN that waited and a
PUTS that goes on among them) add to it. Rests on a wait as a state: D22, log 8; a begun step as a state: logs 8,
21; arrivals: R37, log 6; no message of HALT: D15, log 23; RTI and RES: D5, log 13, as next states, log 9; a TRAP
without a routine: D6, log 12. -/
def Obligations.OutputOnlyGrows : Prop :=
  (∀ (i : Instr) (s t : State), exec i s = .next t →
    s.consoleOut <+: t.consoleOut ∧ (writesConsole i = false → t.consoleOut = s.consoleOut)) ∧
  ∀ s : State, (s.resume .getc).consoleOut = s.consoleOut ∧
    (s.resume .inn).consoleOut = s.consoleOut ++ s.incoming.take 1 ∧
    ∀ a, s.consoleOut <+: (s.resume (.puts a)).consoleOut

/-- 00_scope R13, 10_state R37: a step lets the next batches of input arrive, as many as it has console operations, and
consumes the stream so extended from its oldest character on, each character once. Rests on arrivals: R37, log 6;
fetch and string cells polling at KBSR: R44, D11, log 16; a begun step as a state: logs 8, 21. -/
def Obligations.InputIsConsumedInOrder : Prop :=
  ∀ s t : State, step s = .next t →
    ∃ k, t.arrivals = s.arrivals.drop k ∧ t.consoleIn <:+ s.consoleIn ++ s.arrivals.first k

/-- 60_exceptions R173, 40_step R92: a step that waits in ConsoleRead completes when a character arrives; until then all
state survives the wait. Rests on a wait as a state: D22, log 8; zero-extension of a character: D9, log 16;
arrivals: R37, log 6; when the stop request is sampled: D17, log 7. -/
def Obligations.WaitEndsWithACharacter : Prop :=
  ∀ (s : State) (w : PendingStep), s.run = .running → s.waiting = some w → w = .getc ∨ w = .inn →
    (s.incoming = [] → step s = .next (s.setInput [] s.arrivals.tail)) ∧
    (∀ c cs, s.incoming = c :: cs →
      ∃ t, step s = .next t ∧ t.waiting = none ∧ (t.reg .r0).toNat = c.toNat ∧ t.consoleIn = cs ∧
        t.arrivals = s.arrivals.tail ∧
        t.consoleOut = (if w = .inn then s.consoleOut ++ [c] else s.consoleOut) ∧
        SameRegsBut [.r0] s t ∧ t.pc = s.pc ∧ t.cond = s.cond ∧ t.run = .running ∧ t.cause = s.cause ∧
        t.mem = s.mem ∧ t.flushed = s.flushed ∧ SameLaunch s t)

/-! ### Reset, loader, placing a word (70_reset_and_hazards.md) -/

/-- 70_reset R181, 10_state R30 to R32: what reset leaves, for every value of the open launch parameters; BR is then
taken exactly on its z bit (R31). Rests on START_ADDRESS: D8, log 22; the flags: D3, log 10; the stop cause: D16,
log 26; registers and memory at reset as launch arguments: D7, logs 2, 3. -/
def Obligations.ResetLeavesTheStatedValues : Prop :=
  (∀ (start : Word) (regs : RegFile) (mem : Memory) (prompt input : List Byte) (arrivals : Arrivals)
    (stops : List Bool),
    let s := State.launch start regs mem prompt input arrivals stops
    s.pc = start ∧ s.cond = .zro ∧ s.run = .running ∧ s.cause = none ∧ s.consoleOut = [] ∧
      (∀ r, s.reg r = regs.get r) ∧ (∀ a : Word, s.cell a = mem.get a.toNat) ∧
      ∀ n z p, branchTaken n z p s.cond = z) ∧
  State.reset.pc = 0x3000#16 ∧ State.reset.cond = .zro ∧ State.reset.run = .running ∧ State.reset.cause = none

/-- 70_reset R183: the loader puts word k of an image in cell origin + k and touches nothing else; an image that would
run past the last cell is rejected. Rests on the loader: log 20; canonical memory: log 1. -/
def Obligations.LoaderPopulatesTheImage : Prop :=
  ∀ (s : State) (origin : Word) (words : List Word), s.mem.wf →
    (65536 < origin.toNat + words.length → s.loadImage origin words = none) ∧
    (origin.toNat + words.length ≤ 65536 →
      ∃ t, s.loadImage origin words = some t ∧ t.mem.wf ∧ { t with mem := s.mem } = s ∧
        ∀ a : Word, t.cell a =
          if h : origin.toNat ≤ a.toNat ∧ a.toNat - origin.toNat < words.length
          then words[a.toNat - origin.toNat] else s.cell a)

/-- The model's own means to place a word: the very next step runs it, as the decoded instruction, at the incremented
`pc`. Rests on placing a word: log 19; fetch and string cells polling at KBSR: R44, D11, log 16; canonical memory:
log 1. -/
def Obligations.PlacedWordRunsNext : Prop :=
  ∀ (s : State) (nbits w : Nat) (i : Instr), s.mem.wf → decodeTableWord nbits w = some i →
    step (s.withFetchWord nbits w) = exec i (s.withFetchWord nbits w).afterSample.afterFetch ∧
    (s.withFetchWord nbits w).regs = s.regs ∧ (s.withFetchWord nbits w).cond = s.cond ∧
    (s.pc ≠ Config.kbsr → (s.withFetchWord nbits w).pc = s.pc)
end

