-- ==== Sys2Proof/Laws/Decode.lean ====
section
/-! SUPPORT. Fields of words put together from fields, and the decoder on such words. -/

namespace Sys2Proof

/-- Bit `i` of a placed field. -/
@[simp] theorem place_getElem {n : Nat} (pos : Nat) (f : BitVec n) (i : Nat) (hi : i < 16) :
    (place pos f)[i] = (decide (pos ≤ i) && f.getLsbD (i - pos)) := by
  by_cases h : i < pos
  · simp [place, h]
  · simp [place, h]; omega

theorem place_getLsbD {n : Nat} (pos : Nat) (f : BitVec n) (i : Nat) (hi : i < 16) :
    (place pos f).getLsbD i = (decide (pos ≤ i) && f.getLsbD (i - pos)) := by
  rw [BitVec.getLsbD_eq_getElem hi, place_getElem]

/-- A field read where it was placed. -/
theorem extract_place {n : Nat} (pos : Nat) (f : BitVec n) (h : pos + n ≤ 16) :
    (place pos f).extractLsb' pos n = f := by
  apply BitVec.eq_of_getLsbD_eq
  intro i hi
  rw [BitVec.getLsbD_extractLsb', place_getLsbD _ _ _ (by omega)]
  simp [hi]

/-- A field read wholly below or above where another was placed is 0. -/
theorem extract_place_other {n : Nat} (pos start len : Nat) (f : BitVec n) (hl : start + len ≤ 16)
    (h : start + len ≤ pos ∨ pos + n ≤ start) : (place pos f).extractLsb' start len = 0#len := by
  apply BitVec.eq_of_getLsbD_eq
  intro i hi
  rw [BitVec.getLsbD_extractLsb', place_getLsbD _ _ _ (by omega), BitVec.getLsbD_zero]
  rcases h with h | h
  · simp; omega
  · rw [BitVec.getLsbD_of_ge f _ (by omega)]; simp

@[simp] theorem Reg.ofBits_bits (r : Reg) : Reg.ofBits r.bits = r := by cases r <;> rfl

@[simp] theorem Reg.bits_ofBits (b : BitVec 3) : (Reg.ofBits b).bits = b := by
  revert b; decide

end Sys2Proof
end

