-- ==== Sys2Proof/Laws/State.lean ====
section
/-! SUPPORT. One lemma per field per update of State, each true by rfl, so that no proof unfolds a record update. -/

namespace Sys2Proof.Machine

variable (s : State)

/-! ### setReg -/

@[simp] theorem State.setReg_regs (r : Reg) (v : Word) : (s.setReg r v).regs = s.regs.set r v := rfl
@[simp] theorem State.setReg_pc (r : Reg) (v : Word) : (s.setReg r v).pc = s.pc := rfl
@[simp] theorem State.setReg_cond (r : Reg) (v : Word) : (s.setReg r v).cond = s.cond := rfl
@[simp] theorem State.setReg_run (r : Reg) (v : Word) : (s.setReg r v).run = s.run := rfl
@[simp] theorem State.setReg_cause (r : Reg) (v : Word) : (s.setReg r v).cause = s.cause := rfl
@[simp] theorem State.setReg_waiting (r : Reg) (v : Word) : (s.setReg r v).waiting = s.waiting := rfl
@[simp] theorem State.setReg_mem (r : Reg) (v : Word) : (s.setReg r v).mem = s.mem := rfl
@[simp] theorem State.setReg_consoleIn (r : Reg) (v : Word) : (s.setReg r v).consoleIn = s.consoleIn := rfl
@[simp] theorem State.setReg_arrivals (r : Reg) (v : Word) : (s.setReg r v).arrivals = s.arrivals := rfl
@[simp] theorem State.setReg_consoleOut (r : Reg) (v : Word) : (s.setReg r v).consoleOut = s.consoleOut := rfl
@[simp] theorem State.setReg_flushed (r : Reg) (v : Word) : (s.setReg r v).flushed = s.flushed := rfl
@[simp] theorem State.setReg_stopSamples (r : Reg) (v : Word) : (s.setReg r v).stopSamples = s.stopSamples := rfl
@[simp] theorem State.setReg_inPrompt (r : Reg) (v : Word) : (s.setReg r v).inPrompt = s.inPrompt := rfl
@[simp] theorem State.setReg_cell (r : Reg) (v : Word) (i : Word) : (s.setReg r v).cell i = s.cell i := rfl

/-! ### setPc -/

@[simp] theorem State.setPc_regs (v : Word) : (s.setPc v).regs = s.regs := rfl
@[simp] theorem State.setPc_pc (v : Word) : (s.setPc v).pc = v := rfl
@[simp] theorem State.setPc_cond (v : Word) : (s.setPc v).cond = s.cond := rfl
@[simp] theorem State.setPc_run (v : Word) : (s.setPc v).run = s.run := rfl
@[simp] theorem State.setPc_cause (v : Word) : (s.setPc v).cause = s.cause := rfl
@[simp] theorem State.setPc_waiting (v : Word) : (s.setPc v).waiting = s.waiting := rfl
@[simp] theorem State.setPc_mem (v : Word) : (s.setPc v).mem = s.mem := rfl
@[simp] theorem State.setPc_consoleIn (v : Word) : (s.setPc v).consoleIn = s.consoleIn := rfl
@[simp] theorem State.setPc_arrivals (v : Word) : (s.setPc v).arrivals = s.arrivals := rfl
@[simp] theorem State.setPc_consoleOut (v : Word) : (s.setPc v).consoleOut = s.consoleOut := rfl
@[simp] theorem State.setPc_flushed (v : Word) : (s.setPc v).flushed = s.flushed := rfl
@[simp] theorem State.setPc_stopSamples (v : Word) : (s.setPc v).stopSamples = s.stopSamples := rfl
@[simp] theorem State.setPc_inPrompt (v : Word) : (s.setPc v).inPrompt = s.inPrompt := rfl
@[simp] theorem State.setPc_reg (v : Word) (i : Reg) : (s.setPc v).reg i = s.reg i := rfl
@[simp] theorem State.setPc_cell (v : Word) (i : Word) : (s.setPc v).cell i = s.cell i := rfl

/-! ### setCond -/

@[simp] theorem State.setCond_regs (c : Cond) : (s.setCond c).regs = s.regs := rfl
@[simp] theorem State.setCond_pc (c : Cond) : (s.setCond c).pc = s.pc := rfl
@[simp] theorem State.setCond_cond (c : Cond) : (s.setCond c).cond = c := rfl
@[simp] theorem State.setCond_run (c : Cond) : (s.setCond c).run = s.run := rfl
@[simp] theorem State.setCond_cause (c : Cond) : (s.setCond c).cause = s.cause := rfl
@[simp] theorem State.setCond_waiting (c : Cond) : (s.setCond c).waiting = s.waiting := rfl
@[simp] theorem State.setCond_mem (c : Cond) : (s.setCond c).mem = s.mem := rfl
@[simp] theorem State.setCond_consoleIn (c : Cond) : (s.setCond c).consoleIn = s.consoleIn := rfl
@[simp] theorem State.setCond_arrivals (c : Cond) : (s.setCond c).arrivals = s.arrivals := rfl
@[simp] theorem State.setCond_consoleOut (c : Cond) : (s.setCond c).consoleOut = s.consoleOut := rfl
@[simp] theorem State.setCond_flushed (c : Cond) : (s.setCond c).flushed = s.flushed := rfl
@[simp] theorem State.setCond_stopSamples (c : Cond) : (s.setCond c).stopSamples = s.stopSamples := rfl
@[simp] theorem State.setCond_inPrompt (c : Cond) : (s.setCond c).inPrompt = s.inPrompt := rfl
@[simp] theorem State.setCond_reg (c : Cond) (i : Reg) : (s.setCond c).reg i = s.reg i := rfl
@[simp] theorem State.setCond_cell (c : Cond) (i : Word) : (s.setCond c).cell i = s.cell i := rfl

/-! ### setcc -/

@[simp] theorem State.setcc_regs (r : Reg) : (s.setcc r).regs = s.regs := rfl
@[simp] theorem State.setcc_pc (r : Reg) : (s.setcc r).pc = s.pc := rfl
@[simp] theorem State.setcc_cond (r : Reg) : (s.setcc r).cond = condOf (s.reg r) := rfl
@[simp] theorem State.setcc_run (r : Reg) : (s.setcc r).run = s.run := rfl
@[simp] theorem State.setcc_cause (r : Reg) : (s.setcc r).cause = s.cause := rfl
@[simp] theorem State.setcc_waiting (r : Reg) : (s.setcc r).waiting = s.waiting := rfl
@[simp] theorem State.setcc_mem (r : Reg) : (s.setcc r).mem = s.mem := rfl
@[simp] theorem State.setcc_consoleIn (r : Reg) : (s.setcc r).consoleIn = s.consoleIn := rfl
@[simp] theorem State.setcc_arrivals (r : Reg) : (s.setcc r).arrivals = s.arrivals := rfl
@[simp] theorem State.setcc_consoleOut (r : Reg) : (s.setcc r).consoleOut = s.consoleOut := rfl
@[simp] theorem State.setcc_flushed (r : Reg) : (s.setcc r).flushed = s.flushed := rfl
@[simp] theorem State.setcc_stopSamples (r : Reg) : (s.setcc r).stopSamples = s.stopSamples := rfl
@[simp] theorem State.setcc_inPrompt (r : Reg) : (s.setcc r).inPrompt = s.inPrompt := rfl
@[simp] theorem State.setcc_reg (r : Reg) (i : Reg) : (s.setcc r).reg i = s.reg i := rfl
@[simp] theorem State.setcc_cell (r : Reg) (i : Word) : (s.setcc r).cell i = s.cell i := rfl

/-! ### writeDest -/

@[simp] theorem State.writeDest_regs (r : Reg) (v : Word) : (s.writeDest r v).regs = s.regs.set r v := rfl
@[simp] theorem State.writeDest_pc (r : Reg) (v : Word) : (s.writeDest r v).pc = s.pc := rfl
@[simp] theorem State.writeDest_cond (r : Reg) (v : Word) : (s.writeDest r v).cond = condOf ((s.setReg r v).reg r) := rfl
@[simp] theorem State.writeDest_run (r : Reg) (v : Word) : (s.writeDest r v).run = s.run := rfl
@[simp] theorem State.writeDest_cause (r : Reg) (v : Word) : (s.writeDest r v).cause = s.cause := rfl
@[simp] theorem State.writeDest_waiting (r : Reg) (v : Word) : (s.writeDest r v).waiting = s.waiting := rfl
@[simp] theorem State.writeDest_mem (r : Reg) (v : Word) : (s.writeDest r v).mem = s.mem := rfl
@[simp] theorem State.writeDest_consoleIn (r : Reg) (v : Word) : (s.writeDest r v).consoleIn = s.consoleIn := rfl
@[simp] theorem State.writeDest_arrivals (r : Reg) (v : Word) : (s.writeDest r v).arrivals = s.arrivals := rfl
@[simp] theorem State.writeDest_consoleOut (r : Reg) (v : Word) : (s.writeDest r v).consoleOut = s.consoleOut := rfl
@[simp] theorem State.writeDest_flushed (r : Reg) (v : Word) : (s.writeDest r v).flushed = s.flushed := rfl
@[simp] theorem State.writeDest_stopSamples (r : Reg) (v : Word) : (s.writeDest r v).stopSamples = s.stopSamples := rfl
@[simp] theorem State.writeDest_inPrompt (r : Reg) (v : Word) : (s.writeDest r v).inPrompt = s.inPrompt := rfl
@[simp] theorem State.writeDest_cell (r : Reg) (v : Word) (i : Word) : (s.writeDest r v).cell i = s.cell i := rfl

/-! ### link -/

@[simp] theorem State.link_regs : s.link.regs = s.regs.set .r7 s.pc := rfl
@[simp] theorem State.link_pc : s.link.pc = s.pc := rfl
@[simp] theorem State.link_cond : s.link.cond = s.cond := rfl
@[simp] theorem State.link_run : s.link.run = s.run := rfl
@[simp] theorem State.link_cause : s.link.cause = s.cause := rfl
@[simp] theorem State.link_waiting : s.link.waiting = s.waiting := rfl
@[simp] theorem State.link_mem : s.link.mem = s.mem := rfl
@[simp] theorem State.link_consoleIn : s.link.consoleIn = s.consoleIn := rfl
@[simp] theorem State.link_arrivals : s.link.arrivals = s.arrivals := rfl
@[simp] theorem State.link_consoleOut : s.link.consoleOut = s.consoleOut := rfl
@[simp] theorem State.link_flushed : s.link.flushed = s.flushed := rfl
@[simp] theorem State.link_stopSamples : s.link.stopSamples = s.stopSamples := rfl
@[simp] theorem State.link_inPrompt : s.link.inPrompt = s.inPrompt := rfl
@[simp] theorem State.link_cell (i : Word) : s.link.cell i = s.cell i := rfl

/-! ### setCell -/

@[simp] theorem State.setCell_regs (a v : Word) : (s.setCell a v).regs = s.regs := rfl
@[simp] theorem State.setCell_pc (a v : Word) : (s.setCell a v).pc = s.pc := rfl
@[simp] theorem State.setCell_cond (a v : Word) : (s.setCell a v).cond = s.cond := rfl
@[simp] theorem State.setCell_run (a v : Word) : (s.setCell a v).run = s.run := rfl
@[simp] theorem State.setCell_cause (a v : Word) : (s.setCell a v).cause = s.cause := rfl
@[simp] theorem State.setCell_waiting (a v : Word) : (s.setCell a v).waiting = s.waiting := rfl
@[simp] theorem State.setCell_mem (a v : Word) : (s.setCell a v).mem = s.mem.set a.toNat v := rfl
@[simp] theorem State.setCell_consoleIn (a v : Word) : (s.setCell a v).consoleIn = s.consoleIn := rfl
@[simp] theorem State.setCell_arrivals (a v : Word) : (s.setCell a v).arrivals = s.arrivals := rfl
@[simp] theorem State.setCell_consoleOut (a v : Word) : (s.setCell a v).consoleOut = s.consoleOut := rfl
@[simp] theorem State.setCell_flushed (a v : Word) : (s.setCell a v).flushed = s.flushed := rfl
@[simp] theorem State.setCell_stopSamples (a v : Word) : (s.setCell a v).stopSamples = s.stopSamples := rfl
@[simp] theorem State.setCell_inPrompt (a v : Word) : (s.setCell a v).inPrompt = s.inPrompt := rfl
@[simp] theorem State.setCell_reg (a v : Word) (i : Reg) : (s.setCell a v).reg i = s.reg i := rfl

/-! ### memWrite -/

@[simp] theorem State.memWrite_regs (a v : Word) : (s.memWrite a v).regs = s.regs := rfl
@[simp] theorem State.memWrite_pc (a v : Word) : (s.memWrite a v).pc = s.pc := rfl
@[simp] theorem State.memWrite_cond (a v : Word) : (s.memWrite a v).cond = s.cond := rfl
@[simp] theorem State.memWrite_run (a v : Word) : (s.memWrite a v).run = s.run := rfl
@[simp] theorem State.memWrite_cause (a v : Word) : (s.memWrite a v).cause = s.cause := rfl
@[simp] theorem State.memWrite_waiting (a v : Word) : (s.memWrite a v).waiting = s.waiting := rfl
@[simp] theorem State.memWrite_mem (a v : Word) : (s.memWrite a v).mem = s.mem.set a.toNat v := rfl
@[simp] theorem State.memWrite_consoleIn (a v : Word) : (s.memWrite a v).consoleIn = s.consoleIn := rfl
@[simp] theorem State.memWrite_arrivals (a v : Word) : (s.memWrite a v).arrivals = s.arrivals := rfl
@[simp] theorem State.memWrite_consoleOut (a v : Word) : (s.memWrite a v).consoleOut = s.consoleOut := rfl
@[simp] theorem State.memWrite_flushed (a v : Word) : (s.memWrite a v).flushed = s.flushed := rfl
@[simp] theorem State.memWrite_stopSamples (a v : Word) : (s.memWrite a v).stopSamples = s.stopSamples := rfl
@[simp] theorem State.memWrite_inPrompt (a v : Word) : (s.memWrite a v).inPrompt = s.inPrompt := rfl
@[simp] theorem State.memWrite_reg (a v : Word) (i : Reg) : (s.memWrite a v).reg i = s.reg i := rfl

/-! ### setInput -/

@[simp] theorem State.setInput_regs (q : List Byte) (b : Arrivals) : (s.setInput q b).regs = s.regs := rfl
@[simp] theorem State.setInput_pc (q : List Byte) (b : Arrivals) : (s.setInput q b).pc = s.pc := rfl
@[simp] theorem State.setInput_cond (q : List Byte) (b : Arrivals) : (s.setInput q b).cond = s.cond := rfl
@[simp] theorem State.setInput_run (q : List Byte) (b : Arrivals) : (s.setInput q b).run = s.run := rfl
@[simp] theorem State.setInput_cause (q : List Byte) (b : Arrivals) : (s.setInput q b).cause = s.cause := rfl
@[simp] theorem State.setInput_waiting (q : List Byte) (b : Arrivals) : (s.setInput q b).waiting = s.waiting := rfl
@[simp] theorem State.setInput_mem (q : List Byte) (b : Arrivals) : (s.setInput q b).mem = s.mem := rfl
@[simp] theorem State.setInput_consoleIn (q : List Byte) (b : Arrivals) : (s.setInput q b).consoleIn = q := rfl
@[simp] theorem State.setInput_arrivals (q : List Byte) (b : Arrivals) : (s.setInput q b).arrivals = b := rfl
@[simp] theorem State.setInput_consoleOut (q : List Byte) (b : Arrivals) : (s.setInput q b).consoleOut = s.consoleOut := rfl
@[simp] theorem State.setInput_flushed (q : List Byte) (b : Arrivals) : (s.setInput q b).flushed = s.flushed := rfl
@[simp] theorem State.setInput_stopSamples (q : List Byte) (b : Arrivals) : (s.setInput q b).stopSamples = s.stopSamples := rfl
@[simp] theorem State.setInput_inPrompt (q : List Byte) (b : Arrivals) : (s.setInput q b).inPrompt = s.inPrompt := rfl
@[simp] theorem State.setInput_reg (q : List Byte) (b : Arrivals) (i : Reg) : (s.setInput q b).reg i = s.reg i := rfl
@[simp] theorem State.setInput_cell (q : List Byte) (b : Arrivals) (i : Word) : (s.setInput q b).cell i = s.cell i := rfl

/-! ### deliver -/

@[simp] theorem State.deliver_regs : s.deliver.regs = s.regs := rfl
@[simp] theorem State.deliver_pc : s.deliver.pc = s.pc := rfl
@[simp] theorem State.deliver_cond : s.deliver.cond = s.cond := rfl
@[simp] theorem State.deliver_run : s.deliver.run = s.run := rfl
@[simp] theorem State.deliver_cause : s.deliver.cause = s.cause := rfl
@[simp] theorem State.deliver_waiting : s.deliver.waiting = s.waiting := rfl
@[simp] theorem State.deliver_mem : s.deliver.mem = s.mem := rfl
@[simp] theorem State.deliver_consoleIn : s.deliver.consoleIn = s.incoming := rfl
@[simp] theorem State.deliver_arrivals : s.deliver.arrivals = s.arrivals.tail := rfl
@[simp] theorem State.deliver_consoleOut : s.deliver.consoleOut = s.consoleOut := rfl
@[simp] theorem State.deliver_flushed : s.deliver.flushed = s.flushed := rfl
@[simp] theorem State.deliver_stopSamples : s.deliver.stopSamples = s.stopSamples := rfl
@[simp] theorem State.deliver_inPrompt : s.deliver.inPrompt = s.inPrompt := rfl
@[simp] theorem State.deliver_reg (i : Reg) : s.deliver.reg i = s.reg i := rfl
@[simp] theorem State.deliver_cell (i : Word) : s.deliver.cell i = s.cell i := rfl

/-! ### dropInput -/

@[simp] theorem State.dropInput_regs : s.dropInput.regs = s.regs := rfl
@[simp] theorem State.dropInput_pc : s.dropInput.pc = s.pc := rfl
@[simp] theorem State.dropInput_cond : s.dropInput.cond = s.cond := rfl
@[simp] theorem State.dropInput_run : s.dropInput.run = s.run := rfl
@[simp] theorem State.dropInput_cause : s.dropInput.cause = s.cause := rfl
@[simp] theorem State.dropInput_waiting : s.dropInput.waiting = s.waiting := rfl
@[simp] theorem State.dropInput_mem : s.dropInput.mem = s.mem := rfl
@[simp] theorem State.dropInput_consoleIn : s.dropInput.consoleIn = s.consoleIn.tail := rfl
@[simp] theorem State.dropInput_arrivals : s.dropInput.arrivals = s.arrivals := rfl
@[simp] theorem State.dropInput_consoleOut : s.dropInput.consoleOut = s.consoleOut := rfl
@[simp] theorem State.dropInput_flushed : s.dropInput.flushed = s.flushed := rfl
@[simp] theorem State.dropInput_stopSamples : s.dropInput.stopSamples = s.stopSamples := rfl
@[simp] theorem State.dropInput_inPrompt : s.dropInput.inPrompt = s.inPrompt := rfl
@[simp] theorem State.dropInput_reg (i : Reg) : s.dropInput.reg i = s.reg i := rfl
@[simp] theorem State.dropInput_cell (i : Word) : s.dropInput.cell i = s.cell i := rfl

/-! ### consoleWrite -/

@[simp] theorem State.consoleWrite_regs (b : Byte) : (s.consoleWrite b).regs = s.regs := rfl
@[simp] theorem State.consoleWrite_pc (b : Byte) : (s.consoleWrite b).pc = s.pc := rfl
@[simp] theorem State.consoleWrite_cond (b : Byte) : (s.consoleWrite b).cond = s.cond := rfl
@[simp] theorem State.consoleWrite_run (b : Byte) : (s.consoleWrite b).run = s.run := rfl
@[simp] theorem State.consoleWrite_cause (b : Byte) : (s.consoleWrite b).cause = s.cause := rfl
@[simp] theorem State.consoleWrite_waiting (b : Byte) : (s.consoleWrite b).waiting = s.waiting := rfl
@[simp] theorem State.consoleWrite_mem (b : Byte) : (s.consoleWrite b).mem = s.mem := rfl
@[simp] theorem State.consoleWrite_consoleIn (b : Byte) : (s.consoleWrite b).consoleIn = s.consoleIn := rfl
@[simp] theorem State.consoleWrite_arrivals (b : Byte) : (s.consoleWrite b).arrivals = s.arrivals := rfl
@[simp] theorem State.consoleWrite_consoleOut (b : Byte) : (s.consoleWrite b).consoleOut = s.consoleOut ++ [b] := rfl
@[simp] theorem State.consoleWrite_flushed (b : Byte) : (s.consoleWrite b).flushed = s.flushed := rfl
@[simp] theorem State.consoleWrite_stopSamples (b : Byte) : (s.consoleWrite b).stopSamples = s.stopSamples := rfl
@[simp] theorem State.consoleWrite_inPrompt (b : Byte) : (s.consoleWrite b).inPrompt = s.inPrompt := rfl
@[simp] theorem State.consoleWrite_reg (b : Byte) (i : Reg) : (s.consoleWrite b).reg i = s.reg i := rfl
@[simp] theorem State.consoleWrite_cell (b : Byte) (i : Word) : (s.consoleWrite b).cell i = s.cell i := rfl

/-! ### consoleWrites -/

@[simp] theorem State.consoleWrites_regs (bs : List Byte) : (s.consoleWrites bs).regs = s.regs := rfl
@[simp] theorem State.consoleWrites_pc (bs : List Byte) : (s.consoleWrites bs).pc = s.pc := rfl
@[simp] theorem State.consoleWrites_cond (bs : List Byte) : (s.consoleWrites bs).cond = s.cond := rfl
@[simp] theorem State.consoleWrites_run (bs : List Byte) : (s.consoleWrites bs).run = s.run := rfl
@[simp] theorem State.consoleWrites_cause (bs : List Byte) : (s.consoleWrites bs).cause = s.cause := rfl
@[simp] theorem State.consoleWrites_waiting (bs : List Byte) : (s.consoleWrites bs).waiting = s.waiting := rfl
@[simp] theorem State.consoleWrites_mem (bs : List Byte) : (s.consoleWrites bs).mem = s.mem := rfl
@[simp] theorem State.consoleWrites_consoleIn (bs : List Byte) : (s.consoleWrites bs).consoleIn = s.consoleIn := rfl
@[simp] theorem State.consoleWrites_arrivals (bs : List Byte) : (s.consoleWrites bs).arrivals = s.arrivals := rfl
@[simp] theorem State.consoleWrites_consoleOut (bs : List Byte) : (s.consoleWrites bs).consoleOut = s.consoleOut ++ bs := rfl
@[simp] theorem State.consoleWrites_flushed (bs : List Byte) : (s.consoleWrites bs).flushed = s.flushed := rfl
@[simp] theorem State.consoleWrites_stopSamples (bs : List Byte) : (s.consoleWrites bs).stopSamples = s.stopSamples := rfl
@[simp] theorem State.consoleWrites_inPrompt (bs : List Byte) : (s.consoleWrites bs).inPrompt = s.inPrompt := rfl
@[simp] theorem State.consoleWrites_reg (bs : List Byte) (i : Reg) : (s.consoleWrites bs).reg i = s.reg i := rfl
@[simp] theorem State.consoleWrites_cell (bs : List Byte) (i : Word) : (s.consoleWrites bs).cell i = s.cell i := rfl

/-! ### consoleFlush -/

@[simp] theorem State.consoleFlush_regs : s.consoleFlush.regs = s.regs := rfl
@[simp] theorem State.consoleFlush_pc : s.consoleFlush.pc = s.pc := rfl
@[simp] theorem State.consoleFlush_cond : s.consoleFlush.cond = s.cond := rfl
@[simp] theorem State.consoleFlush_run : s.consoleFlush.run = s.run := rfl
@[simp] theorem State.consoleFlush_cause : s.consoleFlush.cause = s.cause := rfl
@[simp] theorem State.consoleFlush_waiting : s.consoleFlush.waiting = s.waiting := rfl
@[simp] theorem State.consoleFlush_mem : s.consoleFlush.mem = s.mem := rfl
@[simp] theorem State.consoleFlush_consoleIn : s.consoleFlush.consoleIn = s.consoleIn := rfl
@[simp] theorem State.consoleFlush_arrivals : s.consoleFlush.arrivals = s.arrivals := rfl
@[simp] theorem State.consoleFlush_consoleOut : s.consoleFlush.consoleOut = s.consoleOut := rfl
@[simp] theorem State.consoleFlush_flushed : s.consoleFlush.flushed = s.consoleOut.length := rfl
@[simp] theorem State.consoleFlush_stopSamples : s.consoleFlush.stopSamples = s.stopSamples := rfl
@[simp] theorem State.consoleFlush_inPrompt : s.consoleFlush.inPrompt = s.inPrompt := rfl
@[simp] theorem State.consoleFlush_reg (i : Reg) : s.consoleFlush.reg i = s.reg i := rfl
@[simp] theorem State.consoleFlush_cell (i : Word) : s.consoleFlush.cell i = s.cell i := rfl

/-! ### stop -/

@[simp] theorem State.stop_regs (c : StopCause) : (s.stop c).regs = s.regs := rfl
@[simp] theorem State.stop_pc (c : StopCause) : (s.stop c).pc = s.pc := rfl
@[simp] theorem State.stop_cond (c : StopCause) : (s.stop c).cond = s.cond := rfl
@[simp] theorem State.stop_run (c : StopCause) : (s.stop c).run = .stopped := rfl
@[simp] theorem State.stop_cause (c : StopCause) : (s.stop c).cause = some c := rfl
@[simp] theorem State.stop_waiting (c : StopCause) : (s.stop c).waiting = s.waiting := rfl
@[simp] theorem State.stop_mem (c : StopCause) : (s.stop c).mem = s.mem := rfl
@[simp] theorem State.stop_consoleIn (c : StopCause) : (s.stop c).consoleIn = s.consoleIn := rfl
@[simp] theorem State.stop_arrivals (c : StopCause) : (s.stop c).arrivals = s.arrivals := rfl
@[simp] theorem State.stop_consoleOut (c : StopCause) : (s.stop c).consoleOut = s.consoleOut := rfl
@[simp] theorem State.stop_flushed (c : StopCause) : (s.stop c).flushed = s.flushed := rfl
@[simp] theorem State.stop_stopSamples (c : StopCause) : (s.stop c).stopSamples = s.stopSamples := rfl
@[simp] theorem State.stop_inPrompt (c : StopCause) : (s.stop c).inPrompt = s.inPrompt := rfl
@[simp] theorem State.stop_reg (c : StopCause) (i : Reg) : (s.stop c).reg i = s.reg i := rfl
@[simp] theorem State.stop_cell (c : StopCause) (i : Word) : (s.stop c).cell i = s.cell i := rfl

/-! ### raiseUnsupported -/

@[simp] theorem State.raiseUnsupported_regs (op : BitVec 4) (w : Word) : (s.raiseUnsupported op w).regs = s.regs := rfl
@[simp] theorem State.raiseUnsupported_pc (op : BitVec 4) (w : Word) : (s.raiseUnsupported op w).pc = s.pc := rfl
@[simp] theorem State.raiseUnsupported_cond (op : BitVec 4) (w : Word) : (s.raiseUnsupported op w).cond = s.cond := rfl
@[simp] theorem State.raiseUnsupported_run (op : BitVec 4) (w : Word) : (s.raiseUnsupported op w).run = .stopped := rfl
@[simp] theorem State.raiseUnsupported_cause (op : BitVec 4) (w : Word) : (s.raiseUnsupported op w).cause = some (.unsupportedInstruction op w (s.pc - 1#16)) := rfl
@[simp] theorem State.raiseUnsupported_waiting (op : BitVec 4) (w : Word) : (s.raiseUnsupported op w).waiting = s.waiting := rfl
@[simp] theorem State.raiseUnsupported_mem (op : BitVec 4) (w : Word) : (s.raiseUnsupported op w).mem = s.mem := rfl
@[simp] theorem State.raiseUnsupported_consoleIn (op : BitVec 4) (w : Word) : (s.raiseUnsupported op w).consoleIn = s.consoleIn := rfl
@[simp] theorem State.raiseUnsupported_arrivals (op : BitVec 4) (w : Word) : (s.raiseUnsupported op w).arrivals = s.arrivals := rfl
@[simp] theorem State.raiseUnsupported_consoleOut (op : BitVec 4) (w : Word) : (s.raiseUnsupported op w).consoleOut = s.consoleOut := rfl
@[simp] theorem State.raiseUnsupported_flushed (op : BitVec 4) (w : Word) : (s.raiseUnsupported op w).flushed = s.flushed := rfl
@[simp] theorem State.raiseUnsupported_stopSamples (op : BitVec 4) (w : Word) : (s.raiseUnsupported op w).stopSamples = s.stopSamples := rfl
@[simp] theorem State.raiseUnsupported_inPrompt (op : BitVec 4) (w : Word) : (s.raiseUnsupported op w).inPrompt = s.inPrompt := rfl
@[simp] theorem State.raiseUnsupported_reg (op : BitVec 4) (w : Word) (i : Reg) : (s.raiseUnsupported op w).reg i = s.reg i := rfl
@[simp] theorem State.raiseUnsupported_cell (op : BitVec 4) (w : Word) (i : Word) : (s.raiseUnsupported op w).cell i = s.cell i := rfl

/-! ### afterSample -/

@[simp] theorem State.afterSample_regs : s.afterSample.regs = s.regs := rfl
@[simp] theorem State.afterSample_pc : s.afterSample.pc = s.pc := rfl
@[simp] theorem State.afterSample_cond : s.afterSample.cond = s.cond := rfl
@[simp] theorem State.afterSample_run : s.afterSample.run = s.run := rfl
@[simp] theorem State.afterSample_cause : s.afterSample.cause = s.cause := rfl
@[simp] theorem State.afterSample_waiting : s.afterSample.waiting = s.waiting := rfl
@[simp] theorem State.afterSample_mem : s.afterSample.mem = s.mem := rfl
@[simp] theorem State.afterSample_consoleIn : s.afterSample.consoleIn = s.consoleIn := rfl
@[simp] theorem State.afterSample_arrivals : s.afterSample.arrivals = s.arrivals := rfl
@[simp] theorem State.afterSample_consoleOut : s.afterSample.consoleOut = s.consoleOut := rfl
@[simp] theorem State.afterSample_flushed : s.afterSample.flushed = s.flushed := rfl
@[simp] theorem State.afterSample_stopSamples : s.afterSample.stopSamples = s.stopSamples.tail := rfl
@[simp] theorem State.afterSample_inPrompt : s.afterSample.inPrompt = s.inPrompt := rfl
@[simp] theorem State.afterSample_reg (i : Reg) : s.afterSample.reg i = s.reg i := rfl
@[simp] theorem State.afterSample_cell (i : Word) : s.afterSample.cell i = s.cell i := rfl

/-! ### setWaiting -/

@[simp] theorem State.setWaiting_regs (w : Option PendingStep) : (s.setWaiting w).regs = s.regs := rfl
@[simp] theorem State.setWaiting_pc (w : Option PendingStep) : (s.setWaiting w).pc = s.pc := rfl
@[simp] theorem State.setWaiting_cond (w : Option PendingStep) : (s.setWaiting w).cond = s.cond := rfl
@[simp] theorem State.setWaiting_run (w : Option PendingStep) : (s.setWaiting w).run = s.run := rfl
@[simp] theorem State.setWaiting_cause (w : Option PendingStep) : (s.setWaiting w).cause = s.cause := rfl
@[simp] theorem State.setWaiting_waiting (w : Option PendingStep) : (s.setWaiting w).waiting = w := rfl
@[simp] theorem State.setWaiting_mem (w : Option PendingStep) : (s.setWaiting w).mem = s.mem := rfl
@[simp] theorem State.setWaiting_consoleIn (w : Option PendingStep) : (s.setWaiting w).consoleIn = s.consoleIn := rfl
@[simp] theorem State.setWaiting_arrivals (w : Option PendingStep) : (s.setWaiting w).arrivals = s.arrivals := rfl
@[simp] theorem State.setWaiting_consoleOut (w : Option PendingStep) : (s.setWaiting w).consoleOut = s.consoleOut := rfl
@[simp] theorem State.setWaiting_flushed (w : Option PendingStep) : (s.setWaiting w).flushed = s.flushed := rfl
@[simp] theorem State.setWaiting_stopSamples (w : Option PendingStep) : (s.setWaiting w).stopSamples = s.stopSamples := rfl
@[simp] theorem State.setWaiting_inPrompt (w : Option PendingStep) : (s.setWaiting w).inPrompt = s.inPrompt := rfl
@[simp] theorem State.setWaiting_reg (w : Option PendingStep) (i : Reg) : (s.setWaiting w).reg i = s.reg i := rfl
@[simp] theorem State.setWaiting_cell (w : Option PendingStep) (i : Word) : (s.setWaiting w).cell i = s.cell i := rfl

end Sys2Proof.Machine
end

