-- ==== Sys2Proof/Laws/Memory.lean ====
section
/-! SUPPORT. The laws of the memory list: read after write, and the canonical form. -/

namespace Sys2Proof.Machine

theorem Memory.get_of_lt {m : Memory} {a : Nat} (h : ∀ c ∈ m, a < c.1) : m.get a = Config.unlistedCell := by
  induction m with
  | nil => rfl
  | cons c m ih =>
    have hc := h c (by simp)
    rw [Memory.get, if_neg (by omega), ih fun d hd => h d (by simp [hd])]

/-- In a list sorted by address, the entry of an address is what it reads as. -/
theorem Memory.get_of_mem {m : Memory} (hm : m.Pairwise fun x y => x.1 < y.1) {c : Nat × Word} (hc : c ∈ m) :
    m.get c.1 = c.2 := by
  induction m with
  | nil => simp at hc
  | cons d m ih =>
    rw [List.pairwise_cons] at hm
    rcases List.mem_cons.1 hc with rfl | hc
    · simp [Memory.get]
    · have := hm.1 c hc
      rw [Memory.get, if_neg (by omega), ih hm.2 hc]

/-- Read after write, at the same address and at every other. -/
theorem Memory.get_set {m : Memory} (hm : m.Pairwise fun x y => x.1 < y.1) (a : Nat) (v : Word) (i : Nat) :
    (m.set a v).get i = if i = a then v else m.get i := by
  induction m with
  | nil =>
    by_cases hv : v = Config.unlistedCell <;> by_cases hi : i = a <;> simp [Memory.set, Memory.get, hv, hi]
  | cons c m ih =>
    obtain ⟨b, u⟩ := c
    rw [List.pairwise_cons] at hm
    rw [Memory.set]
    split
    · have hlt : Memory.get ((b, u) :: m) a = Config.unlistedCell :=
        Memory.get_of_lt fun d hd => by
          rcases List.mem_cons.1 hd with rfl | hd
          · assumption
          · exact lt_trans (by assumption) (hm.1 d hd)
      split
      · next hv =>
        split
        · next hi => rw [hi, hlt, hv]
        · rfl
      · rw [Memory.get]
    · split
      · next hab =>
        subst hab
        have hlt : Memory.get m a = Config.unlistedCell := Memory.get_of_lt fun d hd => hm.1 d hd
        split
        · next hv =>
          split
          · next hi => rw [hi, hlt, hv]
          · next hi => rw [Memory.get, if_neg hi]
        · rw [Memory.get, Memory.get]
          split
          · rfl
          · rfl
      · rw [Memory.get, Memory.get, ih hm.2]
        split
        · next hib =>
          rw [if_neg (by omega)]
        · rfl

/-- Every entry after a write was there before or is the one written. -/
theorem Memory.mem_set {m : Memory} {a : Nat} {v : Word} {c : Nat × Word} (hc : c ∈ m.set a v) :
    c ∈ m ∨ (c = (a, v) ∧ v ≠ Config.unlistedCell) := by
  induction m with
  | nil =>
    rw [Memory.set] at hc
    split at hc
    · simp at hc
    · exact .inr ⟨by simpa using hc, by assumption⟩
  | cons d m ih =>
    obtain ⟨b, u⟩ := d
    rw [Memory.set] at hc
    split at hc
    · split at hc
      · exact .inl hc
      · rcases List.mem_cons.1 hc with rfl | hc
        · exact .inr ⟨rfl, by assumption⟩
        · exact .inl hc
    · split at hc
      · split at hc
        · exact .inl (by simp [hc])
        · rcases List.mem_cons.1 hc with rfl | hc
          · exact .inr ⟨rfl, by assumption⟩
          · exact .inl (by simp [hc])
      · rcases List.mem_cons.1 hc with rfl | hc
        · exact .inl (by simp)
        · exact (ih hc).imp_left (by simp +contextual)

theorem Memory.pairwise_set {m : Memory} (hm : m.Pairwise fun x y => x.1 < y.1) (a : Nat) (v : Word) :
    (m.set a v).Pairwise fun x y => x.1 < y.1 := by
  induction m with
  | nil => rw [Memory.set]; split <;> simp
  | cons d m ih =>
    obtain ⟨b, u⟩ := d
    have hm' := hm
    rw [List.pairwise_cons] at hm
    rw [Memory.set]
    split
    · split
      · exact hm'
      · refine List.pairwise_cons.2 ⟨fun c hc => ?_, hm'⟩
        rcases List.mem_cons.1 hc with rfl | hc
        · assumption
        · exact lt_trans (by assumption) (hm.1 c hc)
    · split
      · next hab =>
        subst hab
        split
        · exact hm.2
        · exact List.pairwise_cons.2 ⟨fun c hc => hm.1 c hc, hm.2⟩
      · refine List.pairwise_cons.2 ⟨fun c hc => ?_, ih hm.2⟩
        rcases Memory.mem_set hc with hc | ⟨rfl, -⟩
        · exact hm.1 c hc
        · show b < a
          omega

/-- A write to a cell of the address space keeps the canonical form. -/
theorem Memory.wf_set {m : Memory} (hm : m.wf) {a : Nat} (ha : a < Config.memCells) (v : Word) : (m.set a v).wf :=
  ⟨Memory.pairwise_set hm.1 a v, fun c hc => by
    rcases Memory.mem_set hc with hc | ⟨rfl, hv⟩
    · exact hm.2 c hc
    · exact ⟨ha, hv⟩⟩

/-- The reset memory is in canonical form. -/
theorem reset_mem_wf : State.reset.mem.wf := by decide

theorem toNat_lt_memCells (a : Word) : a.toNat < Config.memCells := a.isLt

/-- A store to one cell, seen through the reads of all cells. -/
theorem State.setCell_cell {s : State} (hs : s.mem.wf) (a v i : Word) :
    (s.setCell a v).cell i = if i = a then v else s.cell i := by
  rw [State.cell, State.setCell_mem, Memory.get_set hs.1, State.cell]
  simp only [BitVec.toNat_inj]

theorem State.memWrite_cell {s : State} (hs : s.mem.wf) (a v i : Word) :
    (s.memWrite a v).cell i = if i = a then v else s.cell i :=
  State.setCell_cell hs a v i

theorem State.setCell_wf {s : State} (hs : s.mem.wf) (a v : Word) : (s.setCell a v).mem.wf :=
  Memory.wf_set hs (toNat_lt_memCells a) v

/-! ### Registers -/

@[simp] theorem RegFile.get_set (f : RegFile) (r : Reg) (v : Word) (i : Reg) :
    (f.set r v).get i = if i = r then v else f.get i := by
  cases r <;> cases i <;> rfl

@[simp] theorem State.setReg_reg (s : State) (r : Reg) (v : Word) (i : Reg) :
    (s.setReg r v).reg i = if i = r then v else s.reg i :=
  RegFile.get_set s.regs r v i

@[simp] theorem State.writeDest_reg (s : State) (r : Reg) (v : Word) (i : Reg) :
    (s.writeDest r v).reg i = if i = r then v else s.reg i :=
  RegFile.get_set s.regs r v i

@[simp] theorem State.link_reg (s : State) (i : Reg) : s.link.reg i = if i = .r7 then s.pc else s.reg i :=
  RegFile.get_set s.regs .r7 s.pc i

/-- Two register files with the same eight values are equal. -/
theorem RegFile.ext_get {f g : RegFile} (h : ∀ r, f.get r = g.get r) : f = g := by
  cases f; cases g
  have h0 := h .r0; have h1 := h .r1; have h2 := h .r2; have h3 := h .r3
  have h4 := h .r4; have h5 := h .r5; have h6 := h .r6; have h7 := h .r7
  simp_all [RegFile.get]

end Sys2Proof.Machine
end

