-- ==== Sys2Proof/Laws/Ops.lean ====
section
/-! SUPPORT. What each shared operation over the console and memory does, said once. -/

namespace Sys2Proof.Machine

/-! ### The keyboard poll (20_memory R43) -/

/-- The two outcomes of a poll. -/
theorem State.kbdPoll_cases (s : State) :
    (s.incoming = [] ∧ s.kbdPoll = s.deliver.setCell Config.kbsr 0#16) ∨
    (∃ c cs, s.incoming = c :: cs ∧
      s.kbdPoll = ((s.setInput cs s.arrivals.tail).setCell Config.kbsr Config.kbsrReady).setCell Config.kbdr
        (zextByte c)) := by
  rw [State.kbdPoll]
  cases h : s.incoming with
  | nil => left; simp [State.deliver, h]
  | cons c cs => right; exact ⟨c, cs, rfl, by simp [State.deliver, State.dropInput, h, State.setInput]⟩

@[simp] theorem State.kbdPoll_regs (s : State) : s.kbdPoll.regs = s.regs := by
  rcases s.kbdPoll_cases with ⟨-, h⟩ | ⟨c, cs, -, h⟩ <;> simp [h]
@[simp] theorem State.kbdPoll_reg (s : State) (r : Reg) : s.kbdPoll.reg r = s.reg r := by
  simp [State.reg]
@[simp] theorem State.kbdPoll_pc (s : State) : s.kbdPoll.pc = s.pc := by
  rcases s.kbdPoll_cases with ⟨-, h⟩ | ⟨c, cs, -, h⟩ <;> simp [h]
@[simp] theorem State.kbdPoll_cond (s : State) : s.kbdPoll.cond = s.cond := by
  rcases s.kbdPoll_cases with ⟨-, h⟩ | ⟨c, cs, -, h⟩ <;> simp [h]
@[simp] theorem State.kbdPoll_run (s : State) : s.kbdPoll.run = s.run := by
  rcases s.kbdPoll_cases with ⟨-, h⟩ | ⟨c, cs, -, h⟩ <;> simp [h]
@[simp] theorem State.kbdPoll_cause (s : State) : s.kbdPoll.cause = s.cause := by
  rcases s.kbdPoll_cases with ⟨-, h⟩ | ⟨c, cs, -, h⟩ <;> simp [h]
@[simp] theorem State.kbdPoll_waiting (s : State) : s.kbdPoll.waiting = s.waiting := by
  rcases s.kbdPoll_cases with ⟨-, h⟩ | ⟨c, cs, -, h⟩ <;> simp [h]
@[simp] theorem State.kbdPoll_consoleOut (s : State) : s.kbdPoll.consoleOut = s.consoleOut := by
  rcases s.kbdPoll_cases with ⟨-, h⟩ | ⟨c, cs, -, h⟩ <;> simp [h]
@[simp] theorem State.kbdPoll_flushed (s : State) : s.kbdPoll.flushed = s.flushed := by
  rcases s.kbdPoll_cases with ⟨-, h⟩ | ⟨c, cs, -, h⟩ <;> simp [h]
@[simp] theorem State.kbdPoll_stopSamples (s : State) : s.kbdPoll.stopSamples = s.stopSamples := by
  rcases s.kbdPoll_cases with ⟨-, h⟩ | ⟨c, cs, -, h⟩ <;> simp [h]
@[simp] theorem State.kbdPoll_inPrompt (s : State) : s.kbdPoll.inPrompt = s.inPrompt := by
  rcases s.kbdPoll_cases with ⟨-, h⟩ | ⟨c, cs, -, h⟩ <;> simp [h]
@[simp] theorem State.kbdPoll_arrivals (s : State) : s.kbdPoll.arrivals = s.arrivals.tail := by
  rcases s.kbdPoll_cases with ⟨-, h⟩ | ⟨c, cs, -, h⟩ <;> simp [h]

/-- A poll takes the oldest character that is pending once the next batch has come. -/
@[simp] theorem State.kbdPoll_consoleIn (s : State) : s.kbdPoll.consoleIn = s.incoming.tail := by
  rcases s.kbdPoll_cases with ⟨hi, h⟩ | ⟨c, cs, hi, h⟩
  · simp [h, hi]
  · simp [h, hi]

theorem State.kbdPoll_wf {s : State} (hs : s.mem.wf) : s.kbdPoll.mem.wf := by
  rcases s.kbdPoll_cases with ⟨-, h⟩ | ⟨c, cs, -, h⟩ <;> rw [h]
  · exact State.setCell_wf (by simpa using hs) _ _
  · exact State.setCell_wf (State.setCell_wf (by simpa using hs) _ _) _ _

/-- What a poll leaves in memory when no key is pending. -/
theorem State.kbdPoll_cell_empty {s : State} (hs : s.mem.wf) (hi : s.incoming = []) (a : Word) :
    s.kbdPoll.cell a = if a = Config.kbsr then 0#16 else s.cell a := by
  rcases s.kbdPoll_cases with ⟨-, h⟩ | ⟨c, cs, hi', h⟩
  · rw [h, State.setCell_cell (by simpa using hs)]; rfl
  · simp [hi] at hi'

/-- What a poll leaves in memory when a key is pending. -/
theorem State.kbdPoll_cell_ready {s : State} (hs : s.mem.wf) {c : Byte} {cs : List Byte} (hi : s.incoming = c :: cs)
    (a : Word) :
    s.kbdPoll.cell a =
      if a = Config.kbdr then zextByte c else if a = Config.kbsr then Config.kbsrReady else s.cell a := by
  rcases s.kbdPoll_cases with ⟨hi', -⟩ | ⟨d, ds, hi', h⟩
  · simp [hi] at hi'
  · obtain ⟨rfl, rfl⟩ : c = d ∧ cs = ds := by simpa [hi] using hi'
    rw [h, State.setCell_cell (State.setCell_wf (by simpa using hs) _ _), State.setCell_cell (by simpa using hs)]
    rfl

theorem State.kbdPoll_cell_other {s : State} (hs : s.mem.wf) {a : Word} (h1 : a ≠ Config.kbsr) (h2 : a ≠ Config.kbdr) :
    s.kbdPoll.cell a = s.cell a := by
  cases hi : s.incoming with
  | nil => rw [State.kbdPoll_cell_empty hs hi, if_neg h1]
  | cons c cs => rw [State.kbdPoll_cell_ready hs hi, if_neg h2, if_neg h1]

/-! ### MemRead (20_memory R42) -/

theorem State.afterRead_kbsr (s : State) : s.afterRead Config.kbsr = s.kbdPoll := by simp [State.afterRead]
theorem State.afterRead_plain (s : State) {a : Word} (h : a ≠ Config.kbsr) : s.afterRead a = s := by
  simp [State.afterRead, h]

@[simp] theorem State.memRead_fst (s : State) (a : Word) : (s.memRead a).1 = (s.afterRead a).cell a := rfl
@[simp] theorem State.memRead_snd (s : State) (a : Word) : (s.memRead a).2 = s.afterRead a := rfl

@[simp] theorem State.afterRead_regs (s : State) (a : Word) : (s.afterRead a).regs = s.regs := by
  rw [State.afterRead]; split <;> simp
@[simp] theorem State.afterRead_reg (s : State) (a : Word) (r : Reg) : (s.afterRead a).reg r = s.reg r := by
  simp [State.reg]
@[simp] theorem State.afterRead_pc (s : State) (a : Word) : (s.afterRead a).pc = s.pc := by
  rw [State.afterRead]; split <;> simp
@[simp] theorem State.afterRead_cond (s : State) (a : Word) : (s.afterRead a).cond = s.cond := by
  rw [State.afterRead]; split <;> simp
@[simp] theorem State.afterRead_run (s : State) (a : Word) : (s.afterRead a).run = s.run := by
  rw [State.afterRead]; split <;> simp
@[simp] theorem State.afterRead_cause (s : State) (a : Word) : (s.afterRead a).cause = s.cause := by
  rw [State.afterRead]; split <;> simp
@[simp] theorem State.afterRead_waiting (s : State) (a : Word) : (s.afterRead a).waiting = s.waiting := by
  rw [State.afterRead]; split <;> simp
@[simp] theorem State.afterRead_consoleOut (s : State) (a : Word) : (s.afterRead a).consoleOut = s.consoleOut := by
  rw [State.afterRead]; split <;> simp
@[simp] theorem State.afterRead_flushed (s : State) (a : Word) : (s.afterRead a).flushed = s.flushed := by
  rw [State.afterRead]; split <;> simp
@[simp] theorem State.afterRead_stopSamples (s : State) (a : Word) : (s.afterRead a).stopSamples = s.stopSamples := by
  rw [State.afterRead]; split <;> simp
@[simp] theorem State.afterRead_inPrompt (s : State) (a : Word) : (s.afterRead a).inPrompt = s.inPrompt := by
  rw [State.afterRead]; split <;> simp

theorem State.afterRead_wf {s : State} (hs : s.mem.wf) (a : Word) : (s.afterRead a).mem.wf := by
  rw [State.afterRead]; split
  · exact State.kbdPoll_wf hs
  · exact hs

/-- A read changes no cell but the two keyboard cells. -/
theorem State.afterRead_cell_other {s : State} (hs : s.mem.wf) (b : Word) {a : Word} (h1 : a ≠ Config.kbsr)
    (h2 : a ≠ Config.kbdr) : (s.afterRead b).cell a = s.cell a := by
  rw [State.afterRead]; split
  · exact State.kbdPoll_cell_other hs h1 h2
  · rfl

/-! ### The input stream (10_state R37) -/

@[simp] theorem Arrivals.nothing_head : Arrivals.nothing.head = [] := rfl
@[simp] theorem Arrivals.nothing_tail : Arrivals.nothing.tail = Arrivals.nothing := rfl

/-- A listed batch comes next. -/
@[simp] theorem Arrivals.cons_head (b : List Byte) (bs : List (List Byte)) (l : LaterBatches) :
    (Arrivals.mk (b :: bs) l).head = b := rfl
@[simp] theorem Arrivals.cons_tail (b : List Byte) (bs : List (List Byte)) (l : LaterBatches) :
    (Arrivals.mk (b :: bs) l).tail = ⟨bs, l⟩ := rfl

/-- One batch over and over: it comes next, and what follows is the same again. -/
@[simp] theorem Arrivals.again_head (b : List Byte) : (Arrivals.mk [] (.again [b])).head = b := rfl
@[simp] theorem Arrivals.again_tail (b : List Byte) : (Arrivals.mk [] (.again [b])).tail = ⟨[], .again [b]⟩ := rfl

/-! ### ConsoleRead of GETC and IN (44_trap R131, R134) -/

theorem State.consoleRead_empty {s : State} (h : s.incoming = []) :
    s.consoleRead = (none, s.setInput [] s.arrivals.tail) := by
  simp [State.consoleRead, State.deliver, State.dropInput, State.setInput, h]

theorem State.consoleRead_ready {s : State} {c : Byte} {cs : List Byte} (h : s.incoming = c :: cs) :
    s.consoleRead = (some c, s.setInput cs s.arrivals.tail) := by
  simp [State.consoleRead, State.deliver, State.dropInput, State.setInput, h]

/-- GETC without a character waits and changes nothing else. -/
theorem State.getcRead_empty {s : State} (h : s.incoming = []) :
    s.getcRead = (s.setInput [] s.arrivals.tail).setWaiting (some .getc) := by
  simp [State.getcRead, State.consoleRead_empty h]

/-- GETC with a character consumes it into R0. -/
theorem State.getcRead_ready {s : State} {c : Byte} {cs : List Byte} (h : s.incoming = c :: cs) :
    s.getcRead = ((s.setInput cs s.arrivals.tail).setReg .r0 (zextByte c)).setWaiting none := by
  simp [State.getcRead, State.consoleRead_ready h]

/-- IN without a character waits and changes nothing else. -/
theorem State.inRead_empty {s : State} (h : s.incoming = []) :
    s.inRead = (s.setInput [] s.arrivals.tail).setWaiting (some .inn) := by
  simp [State.inRead, State.consoleRead_empty h]

/-- IN with a character consumes it, echoes it and puts it in R0. -/
theorem State.inRead_ready {s : State} {c : Byte} {cs : List Byte} (h : s.incoming = c :: cs) :
    s.inRead =
      (((s.setInput cs s.arrivals.tail).consoleWrite c).setReg .r0 (zextByte c)).setWaiting none := by
  simp [State.inRead, State.consoleRead_ready h]

/-- Either `ConsoleRead` has a character or it waits. -/
theorem State.incoming_cases (s : State) : s.incoming = [] ∨ ∃ c cs, s.incoming = c :: cs := by
  cases h : s.incoming with
  | nil => exact .inl rfl
  | cons c cs => exact .inr ⟨c, cs, rfl⟩

end Sys2Proof.Machine
end

