-- ==== Sys2Proof/Laws/PerInstr.lean ====
section
/-! SUPPORT. Statements made once per instruction. -/

namespace Sys2Proof.Laws.EncodeOpcode

/-- The opcode field of an instruction's word is the one its row of the opcode table fixes (30_encoding R61, R62). -/
def Statement (i : Instr) : Prop := opcodeBits (encode i) = opcodeBits i.row.pattern

/-- The opcode field of a TRAP word is 1111. -/
theorem opcodeBits_encodeTrap (v : Byte) : opcodeBits (encodeTrap v) = 0xF#4 := by
  simp [encodeTrap, opcodeBits, BitVec.extractLsb'_or, extract_place, extract_place_other]

theorem br (n z p : Bool) (off : BitVec 9) : Statement (.br n z p off) := by
  simp [Statement, encode, opcodeBits, Instr.row, BitVec.extractLsb'_or, extract_place, extract_place_other]
theorem addReg (dr sr1 sr2 : Reg) : Statement (.addReg dr sr1 sr2) := by
  simp [Statement, encode, opcodeBits, Instr.row, BitVec.extractLsb'_or, extract_place, extract_place_other]
theorem addImm (dr sr1 : Reg) (imm : BitVec 5) : Statement (.addImm dr sr1 imm) := by
  simp [Statement, encode, opcodeBits, Instr.row, BitVec.extractLsb'_or, extract_place, extract_place_other]
theorem ld (dr : Reg) (off : BitVec 9) : Statement (.ld dr off) := by
  simp [Statement, encode, opcodeBits, Instr.row, BitVec.extractLsb'_or, extract_place, extract_place_other]
theorem st (sr : Reg) (off : BitVec 9) : Statement (.st sr off) := by
  simp [Statement, encode, opcodeBits, Instr.row, BitVec.extractLsb'_or, extract_place, extract_place_other]
theorem jsr (off : BitVec 11) : Statement (.jsr off) := by
  simp [Statement, encode, opcodeBits, Instr.row, BitVec.extractLsb'_or, extract_place, extract_place_other]
theorem jsrr (base : Reg) : Statement (.jsrr base) := by
  simp [Statement, encode, opcodeBits, Instr.row, BitVec.extractLsb'_or, extract_place, extract_place_other]
theorem andReg (dr sr1 sr2 : Reg) : Statement (.andReg dr sr1 sr2) := by
  simp [Statement, encode, opcodeBits, Instr.row, BitVec.extractLsb'_or, extract_place, extract_place_other]
theorem andImm (dr sr1 : Reg) (imm : BitVec 5) : Statement (.andImm dr sr1 imm) := by
  simp [Statement, encode, opcodeBits, Instr.row, BitVec.extractLsb'_or, extract_place, extract_place_other]
theorem ldr (dr base : Reg) (off : BitVec 6) : Statement (.ldr dr base off) := by
  simp [Statement, encode, opcodeBits, Instr.row, BitVec.extractLsb'_or, extract_place, extract_place_other]
theorem str (sr base : Reg) (off : BitVec 6) : Statement (.str sr base off) := by
  simp [Statement, encode, opcodeBits, Instr.row, BitVec.extractLsb'_or, extract_place, extract_place_other]
theorem rti (low : BitVec 12) : Statement (.rti low) := by
  simp [Statement, encode, opcodeBits, Instr.row, BitVec.extractLsb'_or, extract_place, extract_place_other]
theorem not (dr sr : Reg) : Statement (.not dr sr) := by
  simp [Statement, encode, opcodeBits, Instr.row, BitVec.extractLsb'_or, extract_place, extract_place_other]
theorem ldi (dr : Reg) (off : BitVec 9) : Statement (.ldi dr off) := by
  simp [Statement, encode, opcodeBits, Instr.row, BitVec.extractLsb'_or, extract_place, extract_place_other]
theorem sti (sr : Reg) (off : BitVec 9) : Statement (.sti sr off) := by
  simp [Statement, encode, opcodeBits, Instr.row, BitVec.extractLsb'_or, extract_place, extract_place_other]
theorem jmp (base : Reg) : Statement (.jmp base) := by
  simp [Statement, encode, opcodeBits, Instr.row, BitVec.extractLsb'_or, extract_place, extract_place_other]
theorem res (low : BitVec 12) : Statement (.res low) := by
  simp [Statement, encode, opcodeBits, Instr.row, BitVec.extractLsb'_or, extract_place, extract_place_other]
theorem lea (dr : Reg) (off : BitVec 9) : Statement (.lea dr off) := by
  simp [Statement, encode, opcodeBits, Instr.row, BitVec.extractLsb'_or, extract_place, extract_place_other]
theorem trapGetc : Statement (.trapGetc) := by
  rw [Statement, encode, opcodeBits_encodeTrap, Instr.row]; decide
theorem trapOut : Statement (.trapOut) := by
  rw [Statement, encode, opcodeBits_encodeTrap, Instr.row]; decide
theorem trapPuts : Statement (.trapPuts) := by
  rw [Statement, encode, opcodeBits_encodeTrap, Instr.row]; decide
theorem trapIn : Statement (.trapIn) := by
  rw [Statement, encode, opcodeBits_encodeTrap, Instr.row]; decide
theorem trapPutsp : Statement (.trapPutsp) := by
  rw [Statement, encode, opcodeBits_encodeTrap, Instr.row]; decide
theorem trapHalt : Statement (.trapHalt) := by
  rw [Statement, encode, opcodeBits_encodeTrap, Instr.row]; decide
theorem trapNone80 (vect : Byte) : Statement (.trapNone80 vect) := by
  rw [Statement, encode, opcodeBits_encodeTrap, Instr.row]; decide
theorem trapNone40 (vect : Byte) : Statement (.trapNone40 vect) := by
  rw [Statement, encode, opcodeBits_encodeTrap, Instr.row]; decide
theorem trapNone00 (vect : Byte) : Statement (.trapNone00 vect) := by
  rw [Statement, encode, opcodeBits_encodeTrap, Instr.row]; decide
theorem trapNone30 (vect : Byte) : Statement (.trapNone30 vect) := by
  rw [Statement, encode, opcodeBits_encodeTrap, Instr.row]; decide
theorem trapNone28 (vect : Byte) : Statement (.trapNone28 vect) := by
  rw [Statement, encode, opcodeBits_encodeTrap, Instr.row]; decide
theorem trapNone26 (vect : Byte) : Statement (.trapNone26 vect) := by
  rw [Statement, encode, opcodeBits_encodeTrap, Instr.row]; decide

end Sys2Proof.Laws.EncodeOpcode
end

