-- ==== Sys2Proof/Laws/Strings.lean ====
section
/-! SUPPORT. The loops of PUTS and PUTSP: what every pass keeps, said once; how a step of PUTS ends; that the bound
of PUTSP is never reached. -/

namespace Sys2Proof.Machine

/-! ### One pass of a loop -/

theorem putsLoop_pass (n : Nat) (a : Word) (s : State) :
    putsLoop (n + 1) a s =
      if (s.afterRead a).cell a = 0#16 then s.afterRead a
      else putsLoop n (a + 1#16) ((s.afterRead a).consoleWrite (lowByte ((s.afterRead a).cell a))) :=
  rfl

theorem putspLoop_pass (n : Nat) (a : Word) (s : State) :
    putspLoop (n + 1) a s =
      if lowByte ((s.afterRead a).cell a) = 0#8 then s.afterRead a
      else if highByte ((s.afterRead a).cell a) = 0#8 then
        (s.afterRead a).consoleWrite (lowByte ((s.afterRead a).cell a))
      else putspLoop n (a + 1#16)
        (((s.afterRead a).consoleWrite (lowByte ((s.afterRead a).cell a))).consoleWrite
          (highByte ((s.afterRead a).cell a))) :=
  rfl

/-! ### What a string loop keeps -/

/-- Whatever a read, a console write and the mark of a step that goes on keep, the loop of PUTS keeps. -/
theorem putsLoop_keeps {P : State → Prop} (hr : ∀ s a, P s → P (s.afterRead a))
    (hw : ∀ s b, P s → P (s.consoleWrite b)) (hp : ∀ s a, P s → P (s.setWaiting (some (.puts a)))) (n : Nat) (a : Word)
    (s : State) (h : P s) : P (putsLoop n a s) := by
  induction n generalizing a s with
  | zero => exact hp s a h
  | succ n ih =>
    rw [putsLoop_pass]
    split
    · exact hr s a h
    · exact ih _ _ (hw _ _ (hr s a h))

/-- Whatever a read and a console write keep, the loop of PUTSP keeps. -/
theorem putspLoop_keeps {P : State → Prop} (hr : ∀ s a, P s → P (s.afterRead a))
    (hw : ∀ s b, P s → P (s.consoleWrite b)) (n : Nat) (a : Word) (s : State) (h : P s) : P (putspLoop n a s) := by
  induction n generalizing a s with
  | zero => exact h
  | succ n ih =>
    rw [putspLoop_pass]
    split
    · exact hr s a h
    · split
      · exact hw _ _ (hr s a h)
      · exact ih _ _ (hw _ _ (hw _ _ (hr s a h)))

/-- A field that reads and console writes leave alone is left alone by PUTS and PUTSP. -/
theorem State.puts_same {α : Type} (f : State → α) (hr : ∀ s a, f (s.afterRead a) = f s)
    (hw : ∀ s b, f (s.consoleWrite b) = f s) (hp : ∀ s w, f (s.setWaiting w) = f s) (s : State) (a : Word) :
    f (s.puts a) = f s :=
  putsLoop_keeps (P := fun t => f t = f s) (fun t b h => (hr t b).trans h) (fun t b h => (hw t b).trans h)
    (fun t _ h => (hp t _).trans h) _ a s rfl

theorem State.putsp_same {α : Type} (f : State → α) (hr : ∀ s a, f (s.afterRead a) = f s)
    (hw : ∀ s b, f (s.consoleWrite b) = f s) (s : State) (a : Word) : f (s.putsp a) = f s :=
  putspLoop_keeps (P := fun t => f t = f s) (fun t b h => (hr t b).trans h) (fun t b h => (hw t b).trans h) _ a s rfl

variable (s : State) (a : Word)

@[simp] theorem State.puts_regs : (s.puts a).regs = s.regs := puts_same (·.regs) (by simp) (by simp) (by simp) s a
@[simp] theorem State.puts_reg (r : Reg) : (s.puts a).reg r = s.reg r := puts_same (·.reg r) (by simp) (by simp) (by simp) s a
@[simp] theorem State.puts_pc : (s.puts a).pc = s.pc := puts_same (·.pc) (by simp) (by simp) (by simp) s a
@[simp] theorem State.puts_cond : (s.puts a).cond = s.cond := puts_same (·.cond) (by simp) (by simp) (by simp) s a
@[simp] theorem State.puts_run : (s.puts a).run = s.run := puts_same (·.run) (by simp) (by simp) (by simp) s a
@[simp] theorem State.puts_cause : (s.puts a).cause = s.cause := puts_same (·.cause) (by simp) (by simp) (by simp) s a
@[simp] theorem State.puts_flushed : (s.puts a).flushed = s.flushed := puts_same (·.flushed) (by simp) (by simp) (by simp) s a
@[simp] theorem State.puts_stopSamples : (s.puts a).stopSamples = s.stopSamples :=
  puts_same (·.stopSamples) (by simp) (by simp) (by simp) s a
@[simp] theorem State.puts_inPrompt : (s.puts a).inPrompt = s.inPrompt :=
  puts_same (·.inPrompt) (by simp) (by simp) (by simp) s a

@[simp] theorem State.putsp_regs : (s.putsp a).regs = s.regs := putsp_same (·.regs) (by simp) (by simp) s a
@[simp] theorem State.putsp_reg (r : Reg) : (s.putsp a).reg r = s.reg r := putsp_same (·.reg r) (by simp) (by simp) s a
@[simp] theorem State.putsp_pc : (s.putsp a).pc = s.pc := putsp_same (·.pc) (by simp) (by simp) s a
@[simp] theorem State.putsp_cond : (s.putsp a).cond = s.cond := putsp_same (·.cond) (by simp) (by simp) s a
@[simp] theorem State.putsp_run : (s.putsp a).run = s.run := putsp_same (·.run) (by simp) (by simp) s a
@[simp] theorem State.putsp_cause : (s.putsp a).cause = s.cause := putsp_same (·.cause) (by simp) (by simp) s a
@[simp] theorem State.putsp_waiting : (s.putsp a).waiting = s.waiting :=
  putsp_same (·.waiting) (by simp) (by simp) s a
@[simp] theorem State.putsp_flushed : (s.putsp a).flushed = s.flushed :=
  putsp_same (·.flushed) (by simp) (by simp) s a
@[simp] theorem State.putsp_stopSamples : (s.putsp a).stopSamples = s.stopSamples :=
  putsp_same (·.stopSamples) (by simp) (by simp) s a
@[simp] theorem State.putsp_inPrompt : (s.putsp a).inPrompt = s.inPrompt :=
  putsp_same (·.inPrompt) (by simp) (by simp) s a

variable {s}

theorem State.puts_wf (hs : s.mem.wf) : (s.puts a).mem.wf :=
  putsLoop_keeps (P := fun t => t.mem.wf) (fun _ _ h => afterRead_wf h _) (fun _ _ h => h) (fun _ _ h => h) _ a s hs

theorem State.putsp_wf (hs : s.mem.wf) : (s.putsp a).mem.wf :=
  putspLoop_keeps (P := fun t => t.mem.wf) (fun _ _ h => afterRead_wf h _) (fun _ _ h => h) _ a s hs

/-- PUTS changes no cell but the two keyboard cells. -/
theorem State.puts_cell_other (hs : s.mem.wf) {i : Word} (h1 : i ≠ Config.kbsr) (h2 : i ≠ Config.kbdr) :
    (s.puts a).cell i = s.cell i :=
  (putsLoop_keeps (P := fun t => t.mem.wf ∧ t.cell i = s.cell i)
    (fun _ _ h => ⟨afterRead_wf h.1 _, (afterRead_cell_other h.1 _ h1 h2).trans h.2⟩) (fun _ _ h => h) (fun _ _ h => h)
    _ a s ⟨hs, rfl⟩).2

/-- PUTSP changes no cell but the two keyboard cells. -/
theorem State.putsp_cell_other (hs : s.mem.wf) {i : Word} (h1 : i ≠ Config.kbsr) (h2 : i ≠ Config.kbdr) :
    (s.putsp a).cell i = s.cell i :=
  (putspLoop_keeps (P := fun t => t.mem.wf ∧ t.cell i = s.cell i)
    (fun _ _ h => ⟨afterRead_wf h.1 _, (afterRead_cell_other h.1 _ h1 h2).trans h.2⟩) (fun _ _ h => h) _ a s
    ⟨hs, rfl⟩).2

/-- PUTS only adds to the output. -/
theorem State.puts_prefix : s.consoleOut <+: (s.puts a).consoleOut :=
  putsLoop_keeps (P := fun t => s.consoleOut <+: t.consoleOut) (fun _ _ h => by simpa using h)
    (fun _ _ h => h.trans (List.prefix_append _ _)) (fun _ _ h => h) _ a s (List.prefix_refl _)

/-- PUTSP only adds to the output. -/
theorem State.putsp_prefix : s.consoleOut <+: (s.putsp a).consoleOut :=
  putspLoop_keeps (P := fun t => s.consoleOut <+: t.consoleOut) (fun _ _ h => by simpa using h)
    (fun _ _ h => h.trans (List.prefix_append _ _)) _ a s (List.prefix_refl _)

/-! ### How one step of PUTS ends (log 21) -/

/-- A step of PUTS completes, or it is marked to go on. -/
theorem putsLoop_waiting (n : Nat) (a : Word) (s : State) :
    (putsLoop n a s).waiting = s.waiting ∨ ∃ b, (putsLoop n a s).waiting = some (.puts b) :=
  putsLoop_keeps (P := fun t => t.waiting = s.waiting ∨ ∃ b, t.waiting = some (.puts b)) (fun _ _ h => by simpa using h)
    (fun _ _ h => h) (fun _ b _ => .inr ⟨b, rfl⟩) n a s (.inl rfl)

/-! ### The distance to KBSR; the bound of PUTSP is never reached (log 21) -/

/-- How many cells after `a` KBSR stands, wrapping. -/
def toKbsr (a : Word) : Nat := (Config.kbsr - a).toNat

theorem toKbsr_lt (a : Word) : toKbsr a < 65536 := (Config.kbsr - a).isLt

theorem toKbsr_succ {a : Word} (h : a ≠ Config.kbsr) : toKbsr (a + 1#16) + 1 = toKbsr a := by
  have h' : a.toNat ≠ (0xFE00#16).toNat := fun e => h (BitVec.eq_of_toNat_eq e)
  have hlt : a.toNat < 65536 := a.isLt
  simp only [toKbsr, Config.kbsr, BitVec.toNat_sub, BitVec.toNat_add, BitVec.toNat_ofNat] at *
  omega

theorem lowByte_kbdPoll (hs : s.mem.wf) : lowByte (s.kbdPoll.cell Config.kbsr) = 0#8 := by
  rcases s.incoming_cases with hi | ⟨c, cs, hi⟩
  · rw [State.kbdPoll_cell_empty hs hi, if_pos rfl]; rfl
  · rw [State.kbdPoll_cell_ready hs hi, if_neg (by decide), if_pos rfl]; rfl

theorem putspLoop_succ {n : Nat} {a : Word} {s : State} (hs : s.mem.wf) (hn : toKbsr a < n) :
    putspLoop (n + 1) a s = putspLoop n a s := by
  induction n generalizing a s with
  | zero => omega
  | succ n ih =>
    rw [putspLoop_pass (n + 1) a s, putspLoop_pass n a s]
    split
    · rfl
    · next h =>
      split
      · rfl
      · apply ih
        · exact State.afterRead_wf hs a
        by_cases ha : a = Config.kbsr
        · subst ha
          rw [State.afterRead_kbsr, lowByte_kbdPoll hs] at h
          exact absurd rfl h
        · have := toKbsr_succ ha
          omega

theorem putspLoop_enough {n m : Nat} {a : Word} {s : State} (hs : s.mem.wf) (hn : toKbsr a < n) (hm : n ≤ m) :
    putspLoop m a s = putspLoop n a s := by
  induction m, hm using Nat.le_induction with
  | base => rfl
  | succ m hm ih => rw [putspLoop_succ hs (by omega), ih]

/-- PUTSP is its loop with any bound that suffices. -/
theorem State.putsp_eq {n : Nat} {a : Word} {s : State} (hs : s.mem.wf) (hn : toKbsr a < n) :
    s.putsp a = putspLoop n a s := by
  have hb : toKbsr a < Config.memCells := toKbsr_lt a
  rw [State.putsp]
  generalize Config.memCells = m at hb
  rcases Nat.le_total n m with h | h
  · exact putspLoop_enough hs hn h
  · exact (putspLoop_enough hs hb h).symm

end Sys2Proof.Machine
end

