-- ==== Sys2Proof/Laws/Step.lean ====
section
/-! SUPPORT. The step function, branch by branch, and runs of it. -/

namespace Sys2Proof.Machine

/-- A Stopped machine stays as it is. -/
theorem step_of_stopped {s : State} (h : s.run = .stopped) : step s = .next s := by simp [step, h]

/-- A step that has begun goes on. -/
theorem step_of_waiting {s : State} {w : PendingStep} (h : s.run = .running) (hw : s.waiting = some w) :
    step s = .next (s.resume w) := by
  simp [step, h, hw]

/-- An asserted stop request stops the machine before the fetch. -/
theorem step_of_stopAsserted {s : State} (h : s.run = .running) (hw : s.waiting = none) (ha : s.stopAsserted = true) :
    step s = .next (s.afterSample.stop .stopRequest) := by
  simp [step, h, hw, ha]

/-- Otherwise the fetched word's instruction runs. -/
theorem step_of_fetch {s : State} (h : s.run = .running) (hw : s.waiting = none) (ha : s.stopAsserted = false) :
    step s = exec (decode s.afterSample.fetchWord) s.afterSample.afterFetch := by
  simp [step, h, hw, ha]

/-- The four branches of a step. -/
theorem step_cases (s : State) :
    (s.run = .stopped ∧ step s = .next s) ∨
    (∃ w, s.run = .running ∧ s.waiting = some w ∧ step s = .next (s.resume w)) ∨
    (s.run = .running ∧ s.waiting = none ∧ s.stopAsserted = true ∧
      step s = .next (s.afterSample.stop .stopRequest)) ∨
    (s.run = .running ∧ s.waiting = none ∧ s.stopAsserted = false ∧
      step s = exec (decode s.afterSample.fetchWord) s.afterSample.afterFetch) := by
  cases h : s.run with
  | stopped => exact .inl ⟨rfl, step_of_stopped h⟩
  | running =>
    cases hw : s.waiting with
    | some w => exact .inr (.inl ⟨w, rfl, rfl, step_of_waiting h hw⟩)
    | none =>
      cases ha : s.stopAsserted with
      | true => exact .inr (.inr (.inl ⟨rfl, rfl, rfl, step_of_stopAsserted h hw ha⟩))
      | false => exact .inr (.inr (.inr ⟨rfl, rfl, rfl, step_of_fetch h hw ha⟩))

/-- A run goes on from the next state of its first step. -/
theorem run_succ_of_next (M : Host.Core) (n : Nat) (s t : M.State) (h : M.step s = .next t) :
    M.run (n + 1) s = M.run n t := by
  rw [Host.Core.run, h]

/-- The ways a begun step goes on: GETC and IN wait for a character or complete, PUTS goes on with its string. -/
theorem State.resume_cases (s : State) (w : PendingStep) :
    (∃ a, w = .puts a ∧ s.resume w = (s.setWaiting none).puts a) ∨
    (s.incoming = [] ∧ s.resume w = (s.setInput [] s.arrivals.tail).setWaiting (some w)) ∨
    (∃ c cs, s.incoming = c :: cs ∧
      s.resume w =
        (((s.setInput cs s.arrivals.tail).consoleWrites (if w = .inn then [c] else [])).setReg .r0
          (zextByte c)).setWaiting none) := by
  cases w with
  | puts a => exact .inl ⟨a, rfl, rfl⟩
  | getc =>
    rcases s.incoming_cases with h | ⟨c, cs, h⟩
    · exact .inr (.inl ⟨h, State.getcRead_empty h⟩)
    · exact .inr (.inr ⟨c, cs, h, by
        simp [State.resume, State.getcRead_ready h, State.consoleWrites, State.setInput]⟩)
  | inn =>
    rcases s.incoming_cases with h | ⟨c, cs, h⟩
    · exact .inr (.inl ⟨h, State.inRead_empty h⟩)
    · exact .inr (.inr ⟨c, cs, h, State.inRead_ready h⟩)

/-- What a begun step leaves as it is, whichever step it is. -/
theorem State.resume_same (s : State) (w : PendingStep) :
    (s.resume w).pc = s.pc ∧ (s.resume w).cond = s.cond ∧ (s.resume w).run = s.run ∧ (s.resume w).cause = s.cause ∧
      (s.resume w).stopSamples = s.stopSamples ∧ (s.resume w).inPrompt = s.inPrompt ∧ (s.resume w).flushed = s.flushed := by
  rcases s.resume_cases w with ⟨a, -, h⟩ | ⟨-, h⟩ | ⟨c, cs, -, h⟩ <;> rw [h] <;> simp

theorem State.resume_wf {s : State} (hs : s.mem.wf) (w : PendingStep) : (s.resume w).mem.wf := by
  rcases s.resume_cases w with ⟨a, -, h⟩ | ⟨-, h⟩ | ⟨c, cs, -, h⟩ <;> rw [h]
  · exact State.puts_wf (s := s.setWaiting none) a hs
  · exact hs
  · exact hs

/-- A begun step only adds to the output. -/
theorem State.resume_prefix (s : State) (w : PendingStep) : s.consoleOut <+: (s.resume w).consoleOut := by
  rcases s.resume_cases w with ⟨a, -, h⟩ | ⟨-, h⟩ | ⟨c, cs, -, h⟩ <;> rw [h]
  · exact State.puts_prefix (s := s.setWaiting none) a
  · exact List.prefix_refl _
  · exact List.prefix_append _ _

@[simp] theorem State.afterFetch_regs (s : State) : s.afterFetch.regs = s.regs := State.afterRead_regs s s.pc
@[simp] theorem State.afterFetch_reg (s : State) (r : Reg) : s.afterFetch.reg r = s.reg r := State.afterRead_reg s s.pc r
@[simp] theorem State.afterFetch_pc (s : State) : s.afterFetch.pc = s.pc + 1#16 := rfl
@[simp] theorem State.afterFetch_cond (s : State) : s.afterFetch.cond = s.cond := State.afterRead_cond s s.pc
@[simp] theorem State.afterFetch_run (s : State) : s.afterFetch.run = s.run := State.afterRead_run s s.pc
@[simp] theorem State.afterFetch_cause (s : State) : s.afterFetch.cause = s.cause := State.afterRead_cause s s.pc
@[simp] theorem State.afterFetch_waiting (s : State) : s.afterFetch.waiting = s.waiting := State.afterRead_waiting s s.pc
@[simp] theorem State.afterFetch_consoleOut (s : State) : s.afterFetch.consoleOut = s.consoleOut :=
  State.afterRead_consoleOut s s.pc
@[simp] theorem State.afterFetch_flushed (s : State) : s.afterFetch.flushed = s.flushed := State.afterRead_flushed s s.pc
@[simp] theorem State.afterFetch_stopSamples (s : State) : s.afterFetch.stopSamples = s.stopSamples :=
  State.afterRead_stopSamples s s.pc
@[simp] theorem State.afterFetch_inPrompt (s : State) : s.afterFetch.inPrompt = s.inPrompt :=
  State.afterRead_inPrompt s s.pc

theorem State.afterFetch_wf {s : State} (hs : s.mem.wf) : s.afterFetch.mem.wf := State.afterRead_wf hs s.pc

end Sys2Proof.Machine
end

