-- ==== Sys2Proof/Tests/Slice0.lean ====
section
/-! SUPPORT. Tests. The expected values are those of 95_test_vectors.md (named V…, S…) and of the formats of
30_encoding.md; a test that takes its value elsewhere says so. Then, for each statement with hypotheses, states and
operands that meet them. -/

namespace Sys2Proof.Tests

open Sys2Proof.Machine

/-! ### Well-formedness: for each check a term it refuses, and the ends of the range it takes (30_encoding R71) -/

theorem test_wellFormed_none80 : (Instr.trapNone80 0x7F#8).wellFormed = false ∧
    (Instr.trapNone80 0x80#8).wellFormed = true ∧ (Instr.trapNone80 0xFF#8).wellFormed = true := by decide
theorem test_wellFormed_none40 : (Instr.trapNone40 0x80#8).wellFormed = false ∧
    (Instr.trapNone40 0x3F#8).wellFormed = false ∧ (Instr.trapNone40 0x40#8).wellFormed = true ∧
    (Instr.trapNone40 0x7F#8).wellFormed = true := by decide
theorem test_wellFormed_none00 : (Instr.trapNone00 0x20#8).wellFormed = false ∧
    (Instr.trapNone00 0x00#8).wellFormed = true ∧ (Instr.trapNone00 0x1F#8).wellFormed = true := by decide
theorem test_wellFormed_none30 : (Instr.trapNone30 0x2F#8).wellFormed = false ∧
    (Instr.trapNone30 0x40#8).wellFormed = false ∧ (Instr.trapNone30 0x30#8).wellFormed = true ∧
    (Instr.trapNone30 0x3F#8).wellFormed = true := by decide
theorem test_wellFormed_none28 : (Instr.trapNone28 0x27#8).wellFormed = false ∧
    (Instr.trapNone28 0x30#8).wellFormed = false ∧ (Instr.trapNone28 0x28#8).wellFormed = true ∧
    (Instr.trapNone28 0x2F#8).wellFormed = true := by decide
theorem test_wellFormed_none26 : (Instr.trapNone26 0x25#8).wellFormed = false ∧
    (Instr.trapNone26 0x28#8).wellFormed = false ∧ (Instr.trapNone26 0x26#8).wellFormed = true ∧
    (Instr.trapNone26 0x27#8).wellFormed = true := by decide

/-! ### Decoding: words written out from the formats of 30_encoding R64, x bits partly 1 -/

theorem test_decode_alu :
    decode 0b0001_010_000_0_11_001#16 = .addReg .r2 .r0 .r1 ∧
    decode 0b0001_001_110_1_11101#16 = .addImm .r1 .r6 0b11101#5 ∧
    decode 0b0101_011_100_0_01_101#16 = .andReg .r3 .r4 .r5 ∧
    decode 0b0101_111_001_1_10000#16 = .andImm .r7 .r1 0b10000#5 ∧
    decode 0b1001_001_010_111111#16 = .not .r1 .r2 ∧
    decode 0b1001_110_011_000000#16 = .not .r6 .r3 := by decide
theorem test_decode_control :
    decode 0b0000_1_0_0_000000011#16 = .br true false false 3#9 ∧
    decode 0b0000_0_1_0_100000000#16 = .br false true false 0x100#9 ∧
    decode 0b0000_0_0_1_011111111#16 = .br false false true 0xFF#9 ∧
    decode 0b1100_111_010_111111#16 = .jmp .r2 ∧
    decode 0b0100_1_10000000001#16 = .jsr 0x401#11 ∧
    decode 0b0100_0_11_011_111111#16 = .jsrr .r3 := by decide
theorem test_decode_load :
    decode 0b0010_001_000000010#16 = .ld .r1 2#9 ∧
    decode 0b1010_010_100000001#16 = .ldi .r2 0x101#9 ∧
    decode 0b0110_011_100_111110#16 = .ldr .r3 .r4 0x3E#6 ∧
    decode 0b1110_101_100000000#16 = .lea .r5 0x100#9 := by decide
theorem test_decode_store :
    decode 0b0011_001_111111110#16 = .st .r1 0x1FE#9 ∧
    decode 0b1011_110_000000001#16 = .sti .r6 1#9 ∧
    decode 0b0111_011_100_000011#16 = .str .r3 .r4 3#6 := by decide
theorem test_decode_trap :
    decode 0b1111_0000_00100000#16 = .trapGetc ∧ decode 0b1111_0001_00100001#16 = .trapOut ∧
    decode 0b1111_0010_00100010#16 = .trapPuts ∧ decode 0b1111_0100_00100011#16 = .trapIn ∧
    decode 0b1111_1000_00100100#16 = .trapPutsp ∧ decode 0b1111_1111_00100101#16 = .trapHalt := by decide
theorem test_decode_trap_none :
    decode 0b1111_0000_10000000#16 = .trapNone80 0x80#8 ∧ decode 0b1111_0000_01111111#16 = .trapNone40 0x7F#8 ∧
    decode 0b1111_0000_00011111#16 = .trapNone00 0x1F#8 ∧ decode 0b1111_0000_00110000#16 = .trapNone30 0x30#8 ∧
    decode 0b1111_0000_00101000#16 = .trapNone28 0x28#8 ∧
    decode 0b1111_0000_00100110#16 = .trapNone26 0x26#8 := by decide
theorem test_decode_reserved :
    decode 0b1000_000000000001#16 = .rti 1#12 ∧ decode 0b1101_101010111100#16 = .res 0xABC#12 := by decide

/-- 30_encoding R60: an instruction is one 16-bit word; more bits are none. -/
theorem test_decodeTableWord : decodeTableWord 16 0xF025 = some .trapHalt ∧ decodeTableWord 32 0xF025 = none ∧
    decodeTableWord 16 0x10000 = none := by decide

/-- The encoder's canonical words: those an assembler writes (30_encoding R80; V18, V30, V36, V77). -/
theorem test_encode : encode (.not .r1 .r2) = 0x92BF#16 ∧ encode (.jmp .r2) = 0xC080#16 ∧
    encode (.jsrr .r3) = 0x40C0#16 ∧ encode .trapHalt = 0xF025#16 := by decide

/-- 40_step R95, S1. -/
theorem test_sext : sext 0x1F#5 = 0xFFFF#16 ∧ sext 0x0F#5 = 0x000F#16 ∧ sext 0x20#6 = 0xFFE0#16 ∧
    sext 0x100#9 = 0xFF00#16 ∧ sext 0x400#11 = 0xFC00#16 ∧ sext 0x3FF#11 = 0x03FF#16 := by decide

/-- 40_step R93, the table of 95_test_vectors 2.7. -/
theorem test_condOf : condOf 0x0000#16 = .zro ∧ condOf 0x0001#16 = .pos ∧ condOf 0x7FFF#16 = .pos ∧
    condOf 0x8000#16 = .neg ∧ condOf 0xFFFF#16 = .neg := by decide

/-! ### One step. The start of a vector: pc 3000, cond ZRO, registers 0, IN_PROMPT 3F 20, no input -/

/-- The start state of the vectors. -/
def vec : State := State.launch 0x3000#16 RegFile.zero [] [0x3F#8, 0x20#8] [] Arrivals.nothing []

/-- These batches arrive, then nothing. -/
def arriving (batches : List (List Byte)) : Arrivals := ⟨batches, .again []⟩

/-- With these cells stored. -/
def put (s : State) : List (Word × Word) → State
  | [] => s
  | (a, v) :: cells => put (s.setCell a v) cells

/-- With these registers set. -/
def regs (s : State) : List (Reg × Word) → State
  | [] => s
  | (r, v) :: l => regs (s.setReg r v) l

/-- The start state with the instruction at pc, these registers, cells and flag. -/
def at3000 (w : Word) (r : List (Reg × Word)) (m : List (Word × Word)) (c : Cond) : State :=
  put ((regs vec r).setCond c) ((0x3000#16, w) :: m)

/-- What one step leaves, as `f` sees it. -/
def seen {α : Type} (f : State → α) (s : State) : Option α :=
  match step s with
  | .next t => some (f t)
  | .fault _ => none
  | .refused _ => none

/-- A step from `s` leaves `t`. -/
theorem step_of_seen {s t : State} (h : seen id s = some t) : step s = .next t := by
  rw [seen] at h
  split at h <;> simp_all

/-- V1, V5: overflow wraps; one register three times. -/
theorem test_add : seen (fun t => (t.reg .r2, t.cond, t.pc))
      (at3000 0x1401#16 [(.r0, 0x7FFF#16), (.r1, 1#16)] [] .zro) = some (0x8000#16, .neg, 0x3001#16) ∧
    seen (fun t => (t.reg .r3, t.cond)) (at3000 0x16C3#16 [(.r3, 0x8000#16)] [] .neg) = some (0#16, .zro) := by decide
/-- V8, V10. -/
theorem test_addImm : seen (fun t => (t.reg .r1, t.cond)) (at3000 0x127F#16 [] [] .zro) = some (0xFFFF#16, .neg) ∧
    seen (fun t => (t.reg .r0, t.cond)) (at3000 0x102F#16 [(.r0, 0xFFF1#16)] [] .neg) = some (0#16, .zro) := by decide
/-- V12. -/
theorem test_and : seen (fun t => (t.reg .r3, t.cond))
    (at3000 0x5705#16 [(.r4, 0xF0F0#16), (.r5, 0x0FF0#16)] [] .zro) = some (0x00F0#16, .pos) := by decide
/-- V16, V14. -/
theorem test_andImm : seen (fun t => (t.reg .r0, t.cond)) (at3000 0x5070#16 [(.r1, 0xABCD#16)] [] .zro) =
      some (0xABC0#16, .neg) ∧
    seen (fun t => (t.reg .r0, t.cond)) (at3000 0x5020#16 [(.r0, 0x1234#16)] [] .pos) = some (0#16, .zro) := by decide
/-- V19, V19a. -/
theorem test_not : seen (fun t => (t.reg .r1, t.cond)) (at3000 0x9280#16 [(.r2, 0xFFFF#16)] [] .neg) =
      some (0#16, .zro) ∧
    seen (fun t => (t.reg .r0, t.cond)) (at3000 0x903F#16 [(.r0, 0x8000#16)] [] .neg) = some (0x7FFF#16, .pos) := by
  decide
/-- V25, V29a. -/
theorem test_br : seen (fun t => (t.pc, t.cond)) (at3000 0x0F00#16 [] [] .neg) = some (0x2F01#16, .neg) ∧
    seen (fun t => (t.pc, t.cond)) (at3000 0x0A05#16 [] [] .zro) = some (0x3001#16, .zro) := by decide
/-- V28: pc wraps. -/
theorem test_br_wrap : seen (·.pc) ((put vec [(0xFFFF#16, 0x0E01#16)]).setPc 0xFFFF#16) = some 1#16 := by decide
/-- V32, V31. -/
theorem test_jmp : seen (·.pc) (at3000 0xCEBF#16 [(.r2, 0x4000#16)] [] .zro) = some 0x4000#16 ∧
    seen (fun t => (t.pc, t.cond)) (at3000 0xC1C0#16 [(.r7, 0x3005#16)] [] .neg) = some (0x3005#16, .neg) := by decide
/-- V33, V35. -/
theorem test_jsr : seen (fun t => (t.reg .r7, t.pc, t.cond)) (at3000 0x4810#16 [(.r7, 0x9999#16)] [] .neg) =
      some (0x3001#16, 0x3011#16, .neg) ∧
    seen (fun t => (t.reg .r7, t.pc)) (at3000 0x4C00#16 [] [] .zro) = some (0x3001#16, 0x2C01#16) := by decide
/-- V36, V38. -/
theorem test_jsrr : seen (fun t => (t.reg .r7, t.pc)) (at3000 0x40C0#16 [(.r3, 0x5000#16)] [] .zro) =
      some (0x3001#16, 0x5000#16) ∧
    seen (fun t => (t.reg .r7, t.pc)) (at3000 0x41C0#16 [(.r7, 0x1234#16)] [] .zro) =
      some (0x3001#16, 0x3001#16) := by decide
/-- V40, V43. -/
theorem test_ld : seen (fun t => (t.reg .r1, t.cond)) (at3000 0x2202#16 [] [(0x3003#16, 0x8001#16)] .zro) =
      some (0x8001#16, .neg) ∧
    seen (fun t => (t.reg .r0, t.cond)) (at3000 0x2000#16 [(.r0, 0x5555#16)] [] .neg) = some (0#16, .zro) := by decide
/-- V45. -/
theorem test_ldi : seen (fun t => (t.reg .r2, t.cond))
    (at3000 0xA401#16 [] [(0x3002#16, 0x4000#16), (0x4000#16, 0x1234#16)] .zro) = some (0x1234#16, .pos) := by decide
/-- V47, V48: KBSR without and with a key. -/
theorem test_ldi_kbsr :
    seen (fun t => (t.reg .r2, t.cond, t.cell 0xFE00#16))
      (at3000 0xA401#16 [] [(0x3002#16, 0xFE00#16), (0xFE00#16, 0x5555#16)] .zro) = some (0#16, .zro, 0#16) ∧
    seen (fun t => (t.reg .r2, t.cond, t.cell 0xFE00#16, t.cell 0xFE02#16, t.consoleIn))
      ((at3000 0xA401#16 [] [(0x3002#16, 0xFE00#16)] .zro).setInput [0x61#8] Arrivals.nothing) =
      some (0x8000#16, .neg, 0x8000#16, 0x0061#16, []) := by decide
/-- V51, V51a. -/
theorem test_ldr : seen (fun t => (t.reg .r3, t.cond))
      (at3000 0x6701#16 [(.r4, 0xFFFF#16)] [(0#16, 0x0042#16)] .zro) = some (0x0042#16, .pos) ∧
    seen (fun t => (t.reg .r4, t.cond)) (at3000 0x6920#16 [(.r4, 0x4020#16)] [(0x4000#16, 1#16)] .zro) =
      some (1#16, .pos) := by decide
/-- V52b, V52d. -/
theorem test_lea : seen (fun t => (t.reg .r5, t.cond)) (at3000 0xEB00#16 [] [] .zro) = some (0x2F01#16, .pos) ∧
    seen (fun t => (t.reg .r0, t.cond)) ((put vec [(0x8FFF#16, 0xE000#16)]).setPc 0x8FFF#16) =
      some (0x9000#16, .neg) := by decide
/-- V53, V54. -/
theorem test_st : seen (fun t => (t.cell 0x2FFF#16, t.cond)) (at3000 0x33FE#16 [(.r1, 0xBEEF#16)] [] .pos) =
      some (0xBEEF#16, .pos) ∧
    seen (fun t => t.fetchWord) (at3000 0x3200#16 [(.r1, 0x1234#16)] [] .zro) = some 0x1234#16 := by decide
/-- V55, V56. -/
theorem test_sti : seen (fun t => (t.cell 0x5000#16, t.cell 0x3002#16, t.cond))
      (at3000 0xB401#16 [(.r2, 0xCAFE#16)] [(0x3002#16, 0x5000#16)] .neg) = some (0xCAFE#16, 0x5000#16, .neg) ∧
    seen (fun t => (t.cell 0xFE00#16, t.fetchWord))
      (at3000 0xB401#16 [(.r2, 0x00FF#16)] [(0x3002#16, 0xFE00#16)] .neg) = some (0x00FF#16, 0#16) := by decide
/-- V58, V59. -/
theorem test_str : seen (·.cell 0x4000#16) (at3000 0x7900#16 [(.r4, 0x4000#16)] [] .zro) = some 0x4000#16 ∧
    seen (·.cell 0xFFFF#16) (at3000 0x7F3F#16 [(.r7, 0x7777#16)] [] .zro) = some 0x7777#16 := by decide
/-- V60, V62. -/
theorem test_getc : seen (fun t => (t.reg .r0, t.cond, t.consoleIn, t.consoleOut))
      ((at3000 0xF020#16 [(.r0, 0xFFFF#16)] [] .neg).setInput [0x41#8, 0x42#8] Arrivals.nothing) =
      some (0x0041#16, .neg, [0x42#8], []) ∧
    seen (fun t => (t.reg .r0, t.reg .r7, t.pc, t.waiting)) (at3000 0xF020#16 [(.r0, 0xFFFF#16)] [] .zro) =
      some (0xFFFF#16, 0x3001#16, 0x3001#16, some .getc) := by decide
/-- V63, V64. -/
theorem test_out : seen (fun t => (t.consoleOut, t.reg .r7)) (at3000 0xF021#16 [(.r0, 0x4142#16)] [] .zro) =
      some ([0x42#8], 0x3001#16) ∧
    seen (·.consoleOut) (at3000 0xF021#16 [(.r0, 0x4100#16)] [] .zro) = some [0x00#8] := by decide
/-- V68, V69. -/
theorem test_puts : seen (·.consoleOut) (at3000 0xF022#16 [(.r0, 0x4000#16)]
      [(0x4000#16, 0x0148#16), (0x4001#16, 0x0100#16), (0x4002#16, 0x0049#16)] .zro) = some [0x48#8, 0#8, 0x49#8] ∧
    seen (·.consoleOut) (at3000 0xF022#16 [(.r0, 0xFFFF#16)] [(0xFFFF#16, 0x0041#16), (0#16, 0x0042#16)] .zro) =
      some [0x41#8, 0x42#8] := by decide
/-- V70, V71. -/
theorem test_in : seen (fun t => (t.consoleOut, t.reg .r0, t.consoleIn))
      ((at3000 0xF023#16 [(.r0, 0x1234#16)] [] .zro).setInput [0x71#8] Arrivals.nothing) =
      some ([0x3F#8, 0x20#8, 0x71#8], 0x0071#16, []) ∧
    seen (fun t => (t.consoleOut, t.reg .r0, t.waiting)) (at3000 0xF023#16 [(.r0, 0x1234#16)] [] .zro) =
      some ([0x3F#8, 0x20#8], 0x1234#16, some .inn) := by decide
/-- V72, V75. -/
theorem test_putsp : seen (·.consoleOut) (at3000 0xF024#16 [(.r0, 0x4000#16)]
      [(0x4000#16, 0x6548#16), (0x4001#16, 0x6C6C#16), (0x4002#16, 0x006F#16)] .zro) =
      some [0x48#8, 0x65#8, 0x6C#8, 0x6C#8, 0x6F#8] ∧
    seen (·.consoleOut) (at3000 0xF024#16 [(.r0, 0x4000#16)] [(0x4000#16, 0x4100#16)] .zro) = some [] := by decide
/-- V78. -/
theorem test_halt : seen (fun t => (t.run, t.cause, t.cond, t.consoleOut, t.reg .r7))
    (at3000 0xFF25#16 [(.r7, 0x1111#16)] [] .pos) =
    some (.stopped, some .halt, .pos, [], 0x3001#16) := by decide
/-- V80 to V83: R7 and nothing more. -/
theorem test_no_routine :
    seen (fun t => (t.reg .r7, t.pc, t.run)) (at3000 0xF0FF#16 [(.r7, 0x1111#16)] [] .zro) =
      some (0x3001#16, 0x3001#16, .running) ∧
    seen (fun t => (t.reg .r7, t.pc, t.run)) (at3000 0xF000#16 [(.r7, 0x1111#16)] [(0#16, 0x4000#16)] .zro) =
      some (0x3001#16, 0x3001#16, .running) := by decide
theorem test_no_routine_edges :
    seen (fun t => (t.reg .r7, t.pc, t.run)) (at3000 0xF026#16 [(.r7, 0x1111#16)] [] .zro) =
      some (0x3001#16, 0x3001#16, .running) ∧
    seen (fun t => (t.reg .r7, t.pc, t.run)) (at3000 0xF01F#16 [(.r7, 0x1111#16)] [] .zro) =
      some (0x3001#16, 0x3001#16, .running) := by decide
/-- V91: the recorded address wraps. -/
theorem test_rti : seen (fun t => (t.run, t.cause, t.pc, t.reg .r7))
    ((put (vec.setReg .r7 0x1111#16) [(0xFFFF#16, 0x8FFF#16)]).setPc 0xFFFF#16) =
    some (.stopped, some (.unsupportedInstruction 8#4 0x8FFF#16 0xFFFF#16), 0#16, 0x1111#16) := by decide
/-- V93. -/
theorem test_res : seen (fun t => (t.run, t.cause, t.pc)) (at3000 0xDABC#16 [] [] .zro) =
    some (.stopped, some (.unsupportedInstruction 0xD#4 0xDABC#16 0x3000#16), 0x3001#16) := by decide
/-- V95, V96: the stop request; a Stopped machine. -/
theorem test_stop_request : seen (fun t => (t.run, t.cause, t.pc, t.reg .r0))
      { at3000 0x1025#16 [] [] .zro with stopSamples := [true] } =
      some (.stopped, some .stopRequest, 0x3000#16, 0#16) ∧
    seen id (vec.stop .halt) = some (vec.stop .halt) := by decide
/-- V97, V98: a fetch from KBSR polls. -/
theorem test_fetch_kbsr :
    seen (fun t => (t.cause, t.pc, t.cell 0xFE00#16, t.cell 0xFE02#16, t.consoleIn))
      ((vec.setPc 0xFE00#16).setInput [0x78#8] Arrivals.nothing) =
      some (some (.unsupportedInstruction 8#4 0x8000#16 0xFE00#16), 0xFE01#16, 0x8000#16, 0x0078#16, []) ∧
    seen (fun t => (t.pc, t.reg .r0, t.cell 0xFE00#16)) ((put vec [(0xFE00#16, 0x1025#16)]).setPc 0xFE00#16) =
      some (0xFE01#16, 0#16, 0#16) := by decide
/-- A PUTS that goes on writes the rest of its string and is then complete; the values are those of R133. -/
theorem test_puts_goes_on : seen (fun t => (t.consoleOut, t.waiting))
    ((put vec [(0x4000#16, 0x0148#16), (0x4001#16, 0x0049#16)]).setWaiting (some (.puts 0x4000#16))) =
    some ([0x48#8, 0x49#8], none) := by decide
/-- A wait ends when a character arrives (60_exceptions R173): V62 and V71 continued, values from R131 and R134. -/
theorem test_wait :
    seen (fun t => (t.reg .r0, t.waiting, t.consoleOut)) ((vec.setWaiting (some .getc)).setInput [] (arriving [[0xE9#8]])) =
      some (0x00E9#16, none, []) ∧
    seen (fun t => (t.reg .r0, t.waiting, t.consoleOut)) ((vec.setWaiting (some .inn)).setInput [] (arriving [[0x71#8]])) =
      some (0x0071#16, none, [0x71#8]) := by decide

/-- S4: the source's image, loaded big-endian (70_reset R183); a second image overwrites the first (D25); an image past
the last cell is rejected. -/
theorem test_loader :
    (vec.loadImages [[0x30#8, 0x00#8, 0x10#8, 0x25#8, 0xF0#8, 0x25#8], [0x30#8, 0x01#8, 0xAB#8, 0xCD#8]]).map
      (fun t => (t.cell 0x3000#16, t.cell 0x3001#16, t.cell 0x3002#16)) = some (0x1025#16, 0xABCD#16, 0#16) ∧
    vec.loadImages [[0xFF#8, 0xFF#8, 0#8, 1#8, 0#8, 2#8]] = none := by decide

/-- The host's placement, evaluated by the kernel on the first and the last row of the table and on PUTS. -/
theorem test_withFetchWord :
    seen id (State.reset.withFetchWord 16 0x0000) = some (State.reset.setPc 0x3001#16) ∧
    seen (·.cause) (State.reset.withFetchWord 16 0xF025) = some (some .halt) ∧
    seen (fun t => (t.reg .r7, t.consoleOut)) (State.reset.withFetchWord 16 0xF022) = some (0x3001#16, []) ∧
    seen (·.reg .r7) (State.reset.withFetchWord 16 0xF026) = some 0x3001#16 := by decide

/-! ### Witnesses: concrete states and operands that meet the hypotheses of the statements -/

/-- The hypotheses about registers, memory and run state that most statements share, in the state of the vectors. -/
theorem witness_vec : vec.mem.wf ∧ vec.AtTopOfStep ∧ vec.stopAsserted = false ∧ vec.incoming = [] ∧
    vec.pc ≠ Config.kbsr := ⟨by decide, ⟨rfl, rfl⟩, rfl, rfl, by decide⟩
/-- DecodeInvertsEncode: a well-formed instruction (and the ends of the ranges in the tests above). -/
theorem witness_DecodeInvertsEncode : (Instr.str .r7 .r4 0x3F#6).wellFormed = true := by decide
/-- IgnoredBitsChangeNothing: different words, the same field bits (V2, V32, V78, V91). -/
theorem witness_IgnoredBitsChangeNothing :
    (0x1401#16 &&& (decode 0x1401#16).fieldBits = 0x1419#16 &&& (decode 0x1401#16).fieldBits) ∧
    (0xC080#16 &&& (decode 0xC080#16).fieldBits = 0xCEBF#16 &&& (decode 0xC080#16).fieldBits) ∧
    (0xF025#16 &&& (decode 0xF025#16).fieldBits = 0xFF25#16 &&& (decode 0xF025#16).fieldBits) ∧
    (0x8000#16 &&& (decode 0x8000#16).fieldBits = 0x8FFF#16 &&& (decode 0x8000#16).fieldBits) := by decide
/-- SignExtensionKeepsTheSignedValue: the narrowest and the widest field, and both sides of its test. -/
theorem witness_SignExtensionKeepsTheSignedValue :
    (0 < 1 ∧ 1 < 16 ∧ 0 < 15 ∧ 15 < 16) ∧ (0x0F#5).toNat < 2 ^ (5 - 1) ∧ ¬(0x10#5).toNat < 2 ^ (5 - 1) := by decide
/-- StepRunsTheDecodedInstruction: a fetched word with its instruction. -/
theorem witness_StepRunsTheDecodedInstruction :
    let s := at3000 0xF025#16 [] [] .zro
    (s.AtTopOfStep ∧ s.stopAsserted = false) ∧ decode (s.afterSample.memRead s.pc).1 = .trapHalt :=
  ⟨⟨⟨rfl, rfl⟩, rfl⟩, by decide⟩
/-- StoppedIsTerminal. -/
theorem witness_StoppedIsTerminal : (vec.stop .halt).run = .stopped := rfl
/-- StopRequestIsSampledOnlyAtTheTop, both clauses; a step begun can be any of the three. -/
theorem witness_StopRequestIsSampledOnlyAtTheTop :
    (({ vec with stopSamples := [true] } : State).AtTopOfStep ∧
      ({ vec with stopSamples := [true] } : State).stopAsserted = true) ∧
    (vec.setWaiting (some .getc)).run = .running ∧ (vec.setWaiting (some .getc)).waiting = some .getc :=
  ⟨⟨⟨rfl, rfl⟩, rfl⟩, rfl, rfl⟩
/-- The three clauses of a read in the statements of LD: the cell before KBSR, KBSR with no key, KBSR with a key. -/
theorem witness_LdLoadsTheCell :
    (vec.setPc 0xFDFF#16).mem.wf ∧ (vec.setPc 0xFDFF#16).pc + sext 0#9 ≠ Config.kbsr ∧
    ((vec.setPc 0xFE00#16).pc + sext 0#9 = Config.kbsr ∧ (vec.setPc 0xFE00#16).incoming = []) ∧
    ((vec.setPc 0xFDFF#16).setInput [] (arriving [[0x61#8]])).pc + sext 1#9 = Config.kbsr ∧
    ((vec.setPc 0xFDFF#16).setInput [] (arriving [[0x61#8]])).incoming = [0x61#8] := by decide
/-- LDI and STI: the pointer's cell and the cell it names, plain and KBSR. -/
theorem witness_LdiLoadsThroughThePointer :
    let s := at3000 0xA401#16 [] [(0x3001#16, 0xFE00#16)] .zro
    s.mem.wf ∧ s.pc + sext 1#9 ≠ Config.kbsr ∧ s.cell (s.pc + sext 1#9) = Config.kbsr ∧
      s.cell (s.pc + sext 0#9) ≠ Config.kbsr := by decide
theorem witness_StiStoresThroughThePointer :
    let s := at3000 0xB401#16 [] [(0x3001#16, 0xFE00#16)] .zro
    s.mem.wf ∧ s.cell (s.pc + sext 1#9) = Config.kbsr ∧ (s.setPc 0xFE00#16).pc + sext 0#9 = Config.kbsr := by decide
/-- LDR: both sides of KBSR, with the wrap of the address. -/
theorem witness_LdrLoadsTheCell :
    let s := regs vec [(.r4, 0xFE01#16), (.r5, 0xFFFF#16)]
    s.mem.wf ∧ s.reg .r4 + sext 0x3F#6 = Config.kbsr ∧ s.incoming = [] ∧ s.reg .r5 + sext 1#6 = 0#16 := by decide
/-- ST, STR: the memory is canonical, the stored cell and another. -/
theorem witness_StStoresTheRegister : vec.mem.wf ∧ vec.pc + sext 0x1FE#9 = 0x2FFE#16 := by decide
theorem witness_StrStoresTheRegister : (vec.setReg .r4 0#16).mem.wf ∧ vec.reg .r4 + sext 0x3F#6 = 0xFFFF#16 := by decide
/-- EveryTrapLinksAndStays: the vectors around the routines, a TRAP that ran. -/
theorem witness_EveryTrapLinksAndStays :
    ((0x1F#8).toNat < 0x20 ∧ 0x25 < (0x26#8).toNat ∧ 0x25 < (0xFF#8).toNat) ∧
    isTrap .trapOut = true ∧ vec.mem.wf ∧ exec .trapOut vec = .next (vec.link.consoleWrite 0#8) :=
  ⟨by decide, rfl, by decide, rfl⟩
/-- GETC and IN: both clauses, the character pending or just arriving. -/
theorem witness_GetcReadsOneCharacter :
    (vec.setInput [0x41#8] (arriving [[0x42#8]])).incoming = [0x41#8, 0x42#8] ∧
    (vec.setInput [] (arriving [[0x42#8]])).incoming = [0x42#8] ∧
    vec.incoming = [] := by decide
theorem witness_InPromptsReadsAndEchoes :
    (vec.setInput [] (arriving [[0xFF#8], []])).incoming = [0xFF#8] ∧
    (vec.setInput [] (arriving [[], [0xFF#8]])).incoming = [] := by decide
/-- PUTS: a loop that exits at its second cell. -/
theorem witness_PutsIsTheLoopOfItsRule_exits :
    let s := (put (vec.setReg .r0 0x4000#16) [(0x4000#16, 0x0100#16)]).link
    s.run = .running ∧ s.waiting = none ∧ PutsExits s (s.reg .r0) (s.consoleWrite 0x00#8) :=
  ⟨rfl, rfl, .pass (by decide) (.zero (by decide))⟩

/-- Memory with no zero cell: every cell holds 1. -/
@[irreducible] def fullMem : Memory := (List.range 65536).map fun a => (a, 1#16)

theorem fullMem_wf : fullMem.wf := by
  unfold fullMem
  refine ⟨List.pairwise_map.2 List.pairwise_lt_range, fun c hc => ?_⟩
  obtain ⟨a, ha, rfl⟩ := List.mem_map.1 hc
  exact ⟨List.mem_range.1 ha, by simp [Config.unlistedCell]⟩

theorem fullMem_get (a : Word) : fullMem.get a.toNat = 1#16 :=
  Memory.get_of_mem fullMem_wf.1 (c := (a.toNat, 1#16)) <| by
    unfold fullMem
    exact List.mem_map.2 ⟨a.toNat, List.mem_range.2 a.isLt, rfl⟩

/-- Memory with no zero cell, and the character 'x' typed at every poll for ever. -/
def endless : State := { vec with mem := fullMem, arrivals := ⟨[], .again [[0x78#8]]⟩ }

/-- PutsWithoutATerminatorNeverEnds: all its hypotheses. -/
theorem witness_PutsWithoutATerminatorNeverEnds :
    endless.run = .running ∧ endless.waiting = none ∧ endless.mem.wf ∧
    (∀ a, a ≠ Config.kbsr → endless.cell a ≠ 0x0000#16) ∧ (∀ c ∈ endless.consoleIn, c ≠ 0x00#8) ∧
    ∀ k, (endless.arrivals.drop k).head ≠ [] ∧ ∀ c ∈ (endless.arrivals.drop k).head, c ≠ 0x00#8 := by
  have hd : ∀ k, endless.arrivals.drop k = ⟨[], .again [[0x78#8]]⟩ := by
    intro k
    induction k with
    | zero => rfl
    | succ k ih => exact ih
  refine ⟨rfl, rfl, fullMem_wf, fun a _ => ?_, nofun, fun k => ?_⟩
  · rw [State.cell, show endless.mem = fullMem from rfl, fullMem_get]
    decide
  · rw [hd]
    decide

/-- What PUTS keeps in such a state: no cell it reads is zero. -/
theorem endless_kept {s : State} (h : s.mem.wf ∧ (∀ a, a ≠ Config.kbsr → s.cell a ≠ 0#16) ∧ s.consoleIn = [] ∧
      s.arrivals = ⟨[], .again [[0x78#8]]⟩) (a : Word) :
    (s.memRead a).1 ≠ 0#16 ∧ (s.memRead a).2.mem.wf ∧ (∀ b, b ≠ Config.kbsr → (s.memRead a).2.cell b ≠ 0#16) ∧
      (s.memRead a).2.consoleIn = [] ∧ (s.memRead a).2.arrivals = ⟨[], .again [[0x78#8]]⟩ := by
  obtain ⟨hw, hc, hq, ha⟩ := h
  simp only [State.memRead_fst, State.memRead_snd]
  by_cases hk : a = Config.kbsr
  · subst hk
    have hi : s.incoming = [0x78#8] := by simp [State.incoming, hq, ha]
    rw [State.afterRead_kbsr]
    refine ⟨?_, State.kbdPoll_wf hw, fun b hb => ?_, by simp [hi], by simp [ha]⟩
    · rw [State.kbdPoll_cell_ready hw hi]
      simp [Config.kbsr, Config.kbdr, Config.kbsrReady]
    · rw [State.kbdPoll_cell_ready hw hi, if_neg hb]
      split
      · decide
      · exact hc b hb
  · rw [State.afterRead_plain _ hk]
    exact ⟨hc a hk, hw, hc, hq, ha⟩

theorem endless_exits {s t : State} {a : Word} (h : PutsExits s a t) (hs : s.mem.wf ∧
      (∀ a, a ≠ Config.kbsr → s.cell a ≠ 0#16) ∧ s.consoleIn = [] ∧ s.arrivals = ⟨[], .again [[0x78#8]]⟩) : False := by
  induction h with
  | zero h => exact (endless_kept hs _).1 h
  | pass _ _ ih => exact ih (endless_kept hs _).2

/-- PUTS: a loop that never exits. -/
theorem witness_PutsIsTheLoopOfItsRule_endless :
    endless.run = .running ∧ endless.waiting = none ∧ ¬∃ t, PutsExits endless.link (endless.reg .r0) t :=
  ⟨rfl, rfl, fun ⟨_, h⟩ => endless_exits h
    ⟨fullMem_wf, witness_PutsWithoutATerminatorNeverEnds.2.2.2.1, rfl, rfl⟩⟩

/-- PUTS: the empty string, and the source's. -/
theorem witness_PutsWritesTheString :
    let s := put (vec.setReg .r0 0x4000#16) [(0x4000#16, 0x0048#16), (0x4001#16, 0x0049#16)]
    HoldsString s (s.reg .r0) [0x0048#16, 0x0049#16] ∧ HoldsString vec (vec.reg .r0) [] :=
  ⟨⟨by decide, by decide, by decide, by decide, by decide, by decide, by decide, by decide⟩, by decide, by decide⟩
/-- PUTSP: the loop's three branches; strings of zero, one, two and three bytes. -/
theorem witness_PutspIsTheLoopOfItsRule :
    let s := put vec [(0x4000#16, 0x4948#16), (0x4001#16, 0x0041#16), (0x4002#16, 0x4100#16)]
    s.mem.wf ∧ (lowByte (s.cell 0x4000#16) ≠ 0#8 ∧ highByte (s.cell 0x4000#16) ≠ 0#8) ∧
      (lowByte (s.cell 0x4001#16) ≠ 0#8 ∧ highByte (s.cell 0x4001#16) = 0#8) ∧
      lowByte (s.cell 0x4002#16) = 0#8 := by decide
theorem witness_PutspWritesThePackedString :
    let s := put (vec.setReg .r0 0x4000#16) [(0x4000#16, 0x4948#16), (0x4001#16, 0x0041#16)]
    HoldsPacked s (s.reg .r0) [0x48#8, 0x49#8, 0x41#8] ∧ HoldsPacked s 0x4001#16 [0x41#8] ∧
      HoldsPacked s 0x4002#16 [] :=
  ⟨⟨by decide, by decide, by decide, by decide, by decide, by decide, by decide⟩, ⟨by decide, by decide, by decide⟩,
    by decide, by decide⟩
/-- TrapWithoutRoutineOnlyLinks: each of the six rows. -/
theorem witness_TrapWithoutRoutineOnlyLinks : ∀ p ∈ [(0x80#8, Instr.trapNone80 0x80#8), (0x40#8, .trapNone40 0x40#8),
    (0x00#8, .trapNone00 0x00#8), (0x3F#8, .trapNone30 0x3F#8), (0x28#8, .trapNone28 0x28#8),
    (0x27#8, .trapNone26 0x27#8)],
    p.2 ∈ [.trapNone80 p.1, .trapNone40 p.1, .trapNone00 p.1, .trapNone30 p.1, .trapNone28 p.1, .trapNone26 p.1] := by
  decide
/-- UnsupportedWordIsRecordedWhole: a word of each opcode is fetched. -/
theorem witness_UnsupportedWordIsRecordedWhole :
    let s := at3000 0x8FFF#16 [] [] .zro
    s.AtTopOfStep ∧ s.stopAsserted = false ∧ s.mem.wf ∧ s.afterSample.memRead s.pc = (0x8FFF#16, s.afterSample) ∧
      opcodeBits 0x8FFF#16 = 0x8#4 := ⟨⟨rfl, rfl⟩, rfl, by decide, by decide, by decide⟩
theorem witness_UnsupportedWordIsRecordedWhole_res :
    let s := at3000 0xD000#16 [] [] .zro
    s.AtTopOfStep ∧ s.stopAsserted = false ∧ s.mem.wf ∧ s.afterSample.memRead s.pc = (0xD000#16, s.afterSample) ∧
      opcodeBits 0xD000#16 = 0xD#4 := ⟨⟨rfl, rfl⟩, rfl, by decide, by decide, by decide⟩
/-- The memory statements: canonical memories with one cell listed at each end of the address space. -/
theorem witness_memory : (put vec [(0#16, 1#16), (0xFFFF#16, 2#16)]).mem.wf ∧
    Memory.get [(0, 1#16), (65535, 2#16)] 65535 = 2#16 ∧ Memory.wf [(0, 1#16), (65535, 2#16)] := by decide
/-- ReadAfterWriteReturnsTheValue: each way its clauses are met. -/
theorem witness_ReadAfterWriteReturnsTheValue :
    vec.mem.wf ∧ (0xFE01#16 ≠ Config.kbsr ∧ 0xFE01#16 ≠ Config.kbdr) ∧
    (Config.kbdr ≠ Config.kbsr ∧ 0xFDFF#16 ≠ Config.kbsr) ∧ vec.incoming = [] ∧
    (vec.setInput [0x61#8] Arrivals.nothing).incoming ≠ [] := by decide
/-- The invariant holds at reset, and reset takes a step. -/
theorem witness_reset_inv : State.reset.Inv :=
  ⟨by decide, by decide, by decide, by decide, by decide, nofun⟩
theorem witness_EveryStepKeepsTheInvariant :
    State.reset.Inv ∧ step State.reset = .next (State.reset.setPc 0x3001#16) :=
  ⟨witness_reset_inv, step_of_seen (by decide)⟩
/-- LaunchMeetsTheInvariant: a memory with an image. -/
theorem witness_LaunchMeetsTheInvariant : Memory.wf [(0x3000, 0xF025#16), (0xFFFF, 1#16)] := by decide
/-- StoppedIsReachedInThreeWays: a step that stops, in each way. -/
theorem witness_StoppedIsReachedInThreeWays : ∀ s ∈ [at3000 0xF025#16 [] [] .zro, at3000 0x8000#16 [] [] .zro,
      at3000 0xD000#16 [] [] .zro, { vec with stopSamples := [true] }],
    s.run = .running ∧ seen (·.run) s = some .stopped := by decide
/-- The statements about every instruction: an instruction of each kind, and the next state it gives. -/
theorem witness_exec_next :
    exec (.addImm .r0 .r0 1#5) vec = .next (vec.writeDest .r0 1#16) ∧ definesFlags (.addImm .r0 .r0 1#5) = true ∧
    movesPc (.addImm .r0 .r0 1#5) = false ∧ storesMemory (.addImm .r0 .r0 1#5) = false ∧
    writesConsole (.addImm .r0 .r0 1#5) = false ∧
    exec (.jsr 0#11) vec = .next vec.link ∧ definesFlags (.jsr 0#11) = false ∧ vec.mem.wf :=
  ⟨rfl, rfl, rfl, rfl, rfl, rfl, rfl, by decide⟩
/-- InputIsConsumedInOrder: a step that consumes a character. -/
theorem witness_InputIsConsumedInOrder :
    seen (fun t => (t.consoleIn, t.arrivals)) ((at3000 0xF020#16 [] [] .zro).setInput [0x41#8] (arriving [[0x42#8]])) =
      some ([0x42#8], Arrivals.nothing) := by decide
/-- WaitEndsWithACharacter: a wait, without and with a character. -/
theorem witness_WaitEndsWithACharacter :
    let s := vec.setWaiting (some .inn)
    (s.run = .running ∧ s.waiting = some .inn ∧ s.incoming = []) ∧
      (s.setInput [] (arriving [[0x71#8]])).incoming = [0x71#8] := by
  decide
/-- LoaderPopulatesTheImage: the last image that fits and the first that does not. -/
theorem witness_LoaderPopulatesTheImage :
    (0xFFFF#16).toNat + [7#16].length ≤ 65536 ∧ 65536 < (0xFFFF#16).toNat + [7#16, 8#16].length ∧ vec.mem.wf := by decide
/-- PlacedWordRunsNext, also where pc is KBSR. -/
theorem witness_PlacedWordRunsNext : decodeTableWord 16 0xF0FF = some (.trapNone80 0xFF#8) ∧ vec.mem.wf ∧
    vec.pc ≠ Config.kbsr ∧ ((vec.setPc Config.kbsr).withFetchWord 16 0xF0FF).pc = 0x3000#16 := by decide

end Sys2Proof.Tests
end

/-! ## The order of the console input (10_state R37)

`ConsumesInput` relates two states when the input of the second is what is left of the first's after some batches have
arrived. An operation that leaves the input alone is a case of it (`SameInput.consumesInput`), one that takes a batch is
another (`ConsumesInput.of_batch`), and the relation is transitive: so a step is put together from its operations. -/

namespace Sys2Proof.Machine

/-! ### The schedule of arrivals -/

/-- Skipping batches in two goes is skipping them in one. -/
theorem Arrivals.drop_drop (j k : Nat) (a : Arrivals) : (a.drop k).drop j = a.drop (k + j) := by
  induction k generalizing a with
  | zero => rw [Nat.zero_add]; rfl
  | succ k ih => rw [Nat.succ_add]; exact ih a.tail

/-- The characters of `k + j` batches are those of the first `k` and then those of the `j` after them. -/
theorem Arrivals.first_add (j k : Nat) (a : Arrivals) : a.first (k + j) = a.first k ++ (a.drop k).first j := by
  induction k generalizing a with
  | zero => rw [Nat.zero_add]; rfl
  | succ k ih =>
    rw [Nat.succ_add, Arrivals.first, ih a.tail, Arrivals.first, List.append_assoc, Arrivals.drop]

/-! ### Consuming the input in order -/

/-- From `s` to `t` some batches arrive, and what is consumed is taken from the oldest character on. -/
def ConsumesInput (s t : State) : Prop :=
  ∃ k, t.arrivals = s.arrivals.drop k ∧ t.consoleIn <:+ s.consoleIn ++ s.arrivals.first k

theorem SameInput.consumesInput {s t : State} (h : SameInput s t) : ConsumesInput s t := by
  obtain ⟨hin, harr⟩ := h
  exact ⟨0, harr, by simp [hin, Arrivals.first]⟩

theorem ConsumesInput.trans {s t u : State} (hst : ConsumesInput s t) (htu : ConsumesInput t u) :
    ConsumesInput s u := by
  obtain ⟨k, harr, hin⟩ := hst
  obtain ⟨j, harr', hin'⟩ := htu
  refine ⟨k + j, by rw [harr', harr, Arrivals.drop_drop], hin'.trans ?_⟩
  rw [Arrivals.first_add, ← List.append_assoc, harr]
  exact (List.suffix_append_inj_of_length_eq rfl).2 ⟨hin, rfl⟩

/-- One batch arrives, and what is left pending is a suffix of what was pending with it. -/
theorem ConsumesInput.of_batch {s t : State} (harr : t.arrivals = s.arrivals.tail) (hin : t.consoleIn <:+ s.incoming) :
    ConsumesInput s t :=
  ⟨1, harr, by simpa [Arrivals.first, State.incoming] using hin⟩

/-! ### The shared operations -/

/-- A read consumes nothing but the character a poll takes (20_memory R42, R43). -/
theorem State.afterRead_consumesInput (s : State) (a : Word) : ConsumesInput s (s.afterRead a) := by
  by_cases ha : a = Config.kbsr
  · subst ha
    rw [State.afterRead_kbsr]
    exact .of_batch s.kbdPoll_arrivals (by simp [List.tail_suffix])
  · rw [State.afterRead_plain s ha]
    exact SameInput.consumesInput ⟨rfl, rfl⟩

theorem State.puts_consumesInput (s : State) (a : Word) : ConsumesInput s (s.puts a) :=
  putsLoop_keeps (fun t b h => h.trans (t.afterRead_consumesInput b)) (fun _ _ h => h) (fun _ _ h => h) _ a s
    (SameInput.consumesInput ⟨rfl, rfl⟩)

theorem State.putsp_consumesInput (s : State) (a : Word) : ConsumesInput s (s.putsp a) :=
  putspLoop_keeps (fun t b h => h.trans (t.afterRead_consumesInput b)) (fun _ _ h => h) _ a s
    (SameInput.consumesInput ⟨rfl, rfl⟩)

theorem State.resume_consumesInput (s : State) (w : PendingStep) : ConsumesInput s (s.resume w) := by
  rcases s.resume_cases w with ⟨a, -, h⟩ | ⟨-, h⟩ | ⟨c, cs, hi, h⟩ <;> rw [h]
  · exact (s.setWaiting none).puts_consumesInput a
  · exact .of_batch rfl List.nil_suffix
  · exact .of_batch rfl (hi ▸ List.suffix_cons c cs)

theorem State.afterFetch_consumesInput (s : State) : ConsumesInput s s.afterFetch :=
  s.afterRead_consumesInput s.pc

/-! ### Instructions and steps -/

/-- Each instruction consumes input in order: the loads and STI by their reads, the routines by their reads and
`ConsoleRead`, the others not at all. -/
theorem exec_consumesInput {i : Instr} {s t : State} (h : exec i s = .next t) : ConsumesInput s t := by
  cases i with
  | ld | ldr | sti => cases h; exact s.afterRead_consumesInput _
  | ldi => cases h; exact (s.afterRead_consumesInput _).trans (State.afterRead_consumesInput _ _)
  | trapGetc => cases h; exact s.link.resume_consumesInput .getc
  | trapIn => cases h; exact (s.link.consoleWrites s.inPrompt).resume_consumesInput .inn
  | trapPuts => cases h; exact s.link.puts_consumesInput _
  | trapPutsp => cases h; exact s.link.putsp_consumesInput _
  | br n z p off =>
    cases h
    split <;> exact SameInput.consumesInput ⟨rfl, rfl⟩
  | addReg | addImm | andReg | andImm | not | lea | st | str | jmp | jsr | jsrr | rti | res | trapOut | trapHalt
  | trapNone80 | trapNone40 | trapNone00 | trapNone30 | trapNone28 | trapNone26 =>
    cases h
    exact SameInput.consumesInput ⟨rfl, rfl⟩

/-- Settles O56, by the branches of a step: where it fetches, what the fetch consumes comes before what the instruction
consumes. -/
theorem inputIsConsumedInOrder : Obligations.InputIsConsumedInOrder := by
  intro s t h
  rcases step_cases s with ⟨-, hs⟩ | ⟨w, -, -, hs⟩ | ⟨-, -, -, hs⟩ | ⟨-, -, -, hs⟩ <;> rw [hs] at h
  · cases h
    exact SameInput.consumesInput ⟨rfl, rfl⟩
  · cases h
    exact s.resume_consumesInput w
  · cases h
    exact SameInput.consumesInput ⟨rfl, rfl⟩
  · exact s.afterSample.afterFetch_consumesInput.trans (exec_consumesInput h)

end Sys2Proof.Machine

/-! ## The state (10_state)

A Running machine meets the invariant as soon as it meets the four facts of `State.Runs`, and every operation but `stop`
keeps those; what `stop` leaves meets the invariant by `State.Runs.stop_inv`. So a step keeps the invariant by the
operations it is made of. What the instructions do to the registers and to `pc` is read off the same operations. -/

namespace Sys2Proof

/-- Different selectors name different registers (10_state R20). -/
theorem Reg.ofBits_inj {b b' : BitVec 3} : Reg.ofBits b = Reg.ofBits b' ↔ b = b' :=
  (Function.LeftInverse.injective Reg.bits_ofBits).eq_iff

/-- The word RTI records holds opcode 8 (30_encoding R62). -/
theorem opcodeBits_rti (low : BitVec 12) : opcodeBits (encode (.rti low)) = 0x8#4 :=
  (Laws.EncodeOpcode.rti low).trans (by decide : opcodeBits 0x8000#16 = 0x8#4)

/-- The word RES records holds opcode 13 (30_encoding R62). -/
theorem opcodeBits_res (low : BitVec 12) : opcodeBits (encode (.res low)) = 0xD#4 :=
  (Laws.EncodeOpcode.res low).trans (by decide : opcodeBits 0xD000#16 = 0xD#4)

end Sys2Proof

namespace Sys2Proof.Machine

/-! ### The invariant of a Running machine -/

/-- What the invariant asks of a Running machine: canonical memory, no stop cause (10_state R26), and no more flushed
than written (00_scope R13). -/
def State.Runs (s : State) : Prop :=
  s.mem.wf ∧ s.run = .running ∧ s.cause = none ∧ s.flushed ≤ s.consoleOut.length

theorem State.Runs.inv {s : State} (hs : s.Runs) : s.Inv := by
  obtain ⟨hmem, hrun, hcause, hflushed⟩ := hs
  exact ⟨hmem, by simp [hrun, hcause], fun _ => hrun, hflushed, by simp [hcause], by simp [hcause]⟩

theorem State.Inv.runs {s : State} (hs : s.Inv) (hrun : s.run = .running) : s.Runs :=
  ⟨hs.memory, hrun, by simpa [hrun] using hs.cause_iff, hs.flushed_le⟩

/-- Stopping leads to the invariant where no step is begun and the cause is true: HALT with everything flushed (44_trap
R136), an unsupported word with its opcode (10_state R26). -/
theorem State.Runs.stop_inv {s : State} (hs : s.Runs) (hw : s.waiting = none) {c : StopCause}
    (hhalt : c = .halt → s.flushed = s.consoleOut.length)
    (hunsup : ∀ op instr addr, c = .unsupportedInstruction op instr addr →
      opcodeBits instr = op ∧ (op = 0x8#4 ∨ op = 0xD#4)) : (s.stop c).Inv := by
  obtain ⟨hmem, -, -, hflushed⟩ := hs
  exact ⟨hmem, by simp, by simp [hw], hflushed, by simpa using hhalt, by simpa using hunsup⟩

/-! ### What keeps a machine Running -/

theorem State.Runs.afterRead {s : State} (hs : s.Runs) (a : Word) : (s.afterRead a).Runs := by
  obtain ⟨hmem, hrest⟩ := hs
  exact ⟨State.afterRead_wf hmem a, by simpa using hrest⟩

theorem State.Runs.memWrite {s : State} (hs : s.Runs) (a v : Word) : (s.memWrite a v).Runs := by
  obtain ⟨hmem, hrest⟩ := hs
  exact ⟨State.setCell_wf hmem a v, hrest⟩

theorem State.Runs.link {s : State} (hs : s.Runs) : s.link.Runs := hs

theorem State.Runs.consoleFlush {s : State} (hs : s.Runs) : s.consoleFlush.Runs := by
  obtain ⟨hmem, hrun, hcause, -⟩ := hs
  exact ⟨hmem, hrun, hcause, le_rfl⟩

/-- What adds to the output at most, and leaves memory canonical, keeps a machine Running. -/
theorem State.Runs.of_prefix {s t : State} (hs : s.Runs) (hmem : t.mem.wf) (hrun : t.run = s.run)
    (hcause : t.cause = s.cause) (hflushed : t.flushed = s.flushed) (hout : s.consoleOut <+: t.consoleOut) :
    t.Runs := by
  obtain ⟨-, hrun', hcause', hflushed'⟩ := hs
  exact ⟨hmem, hrun.trans hrun', hcause.trans hcause', hflushed ▸ hflushed'.trans hout.length_le⟩

theorem State.Runs.consoleWrites {s : State} (hs : s.Runs) (bs : List Byte) : (s.consoleWrites bs).Runs :=
  hs.of_prefix hs.1 rfl rfl rfl (List.prefix_append _ bs)

theorem State.Runs.puts {s : State} (hs : s.Runs) (a : Word) : (s.puts a).Runs :=
  hs.of_prefix (State.puts_wf a hs.1) (s.puts_run a) (s.puts_cause a) (s.puts_flushed a) (State.puts_prefix a)

theorem State.Runs.putsp {s : State} (hs : s.Runs) (a : Word) : (s.putsp a).Runs :=
  hs.of_prefix (State.putsp_wf a hs.1) (s.putsp_run a) (s.putsp_cause a) (s.putsp_flushed a) (State.putsp_prefix a)

/-- A begun step goes on Running (40_step R92). -/
theorem State.Runs.resume {s : State} (hs : s.Runs) (w : PendingStep) : (s.resume w).Runs := by
  obtain ⟨-, -, hrun, hcause, -, -, hflushed⟩ := s.resume_same w
  exact hs.of_prefix (State.resume_wf hs.1 w) hrun hcause hflushed (s.resume_prefix w)

/-! ### Instructions and steps keep the invariant -/

/-- UnsupportedInstruction stops a Running machine in the invariant: the word it records holds the opcode
(45_reserved R152). -/
theorem State.Runs.raiseUnsupported_inv {s : State} (hs : s.Runs) (hw : s.waiting = none) {op : BitVec 4} {instr : Word}
    (hinstr : opcodeBits instr = op) (hop : op = 0x8#4 ∨ op = 0xD#4) : (s.raiseUnsupported op instr).Inv :=
  hs.stop_inv hw nofun fun _ _ _ hc => by
    cases hc
    exact ⟨hinstr, hop⟩

/-- An instruction leaves a Running machine in the invariant: HALT, RTI and RES stop it with a true cause, and every
other one leaves it Running. -/
theorem State.Runs.exec_inv {s t : State} (hs : s.Runs) (hw : s.waiting = none) {i : Instr} (h : exec i s = .next t) :
    t.Inv := by
  cases i with
  | trapHalt =>
    cases h
    exact hs.link.consoleFlush.stop_inv hw (fun _ => rfl) nofun
  | rti low => cases h; exact hs.raiseUnsupported_inv hw (opcodeBits_rti low) (.inl rfl)
  | res low => cases h; exact hs.raiseUnsupported_inv hw (opcodeBits_res low) (.inr rfl)
  | ld | ldr => cases h; exact State.Runs.inv (hs.afterRead _)
  | ldi => cases h; exact State.Runs.inv ((hs.afterRead _).afterRead _)
  | st | str => cases h; exact (hs.memWrite _ _).inv
  | sti => cases h; exact ((hs.afterRead _).memWrite _ _).inv
  | trapGetc => cases h; exact (hs.link.resume .getc).inv
  | trapIn => cases h; exact ((hs.link.consoleWrites _).resume .inn).inv
  | trapOut => cases h; exact (hs.link.consoleWrites [_]).inv
  | trapPuts => cases h; exact (hs.link.puts _).inv
  | trapPutsp => cases h; exact (hs.link.putsp _).inv
  | br n z p off =>
    cases h
    split <;> exact State.Runs.inv hs
  | addReg | addImm | andReg | andImm | not | lea | jmp | jsr | jsrr
  | trapNone80 | trapNone40 | trapNone00 | trapNone30 | trapNone28 | trapNone26 =>
    cases h
    exact State.Runs.inv hs

/-- Settles O48, by the branches of a step: a Stopped machine is left as it is, and a Running one either goes on Running
or stops with a true cause. -/
theorem everyStepKeepsTheInvariant : Obligations.EveryStepKeepsTheInvariant := by
  intro s t hs h
  rcases step_cases s with ⟨-, hstep⟩ | ⟨w, hrun, -, hstep⟩ | ⟨hrun, hw, -, hstep⟩ | ⟨hrun, hw, -, hstep⟩ <;>
    rw [hstep] at h
  · cases h
    exact hs
  · cases h
    exact ((hs.runs hrun).resume w).inv
  · cases h
    exact State.Runs.stop_inv (s := s.afterSample) (hs.runs hrun) hw nofun nofun
  · have hfetch : s.afterSample.afterFetch.Runs := State.Runs.afterRead (s := s.afterSample) (hs.runs hrun) s.pc
    exact hfetch.exec_inv (by simpa using hw) h

/-! ### Canonical memories -/

/-- What reads as no unlisted cell does is listed. -/
theorem Memory.mem_of_get_ne {m : Memory} {a : Nat} (h : m.get a ≠ Config.unlistedCell) : (a, m.get a) ∈ m := by
  induction m with
  | nil => exact absurd rfl h
  | cons c m ih =>
    rw [Memory.get] at h ⊢
    split at h
    · next hac => simp [hac]
    · next hac =>
      rw [if_neg hac]
      exact List.mem_cons_of_mem _ (ih h)

/-- A canonical memory lists exactly the cells of the address space that do not read as an unlisted one, each with its
value. -/
theorem Memory.mem_iff_get {m : Memory} (hm : m.wf) (c : Nat × Word) :
    c ∈ m ↔ c.1 < Config.memCells ∧ c.2 ≠ Config.unlistedCell ∧ m.get c.1 = c.2 := by
  obtain ⟨hsorted, hcells⟩ := hm
  constructor
  · intro hc
    exact ⟨(hcells c hc).1, (hcells c hc).2, Memory.get_of_mem hsorted hc⟩
  · rintro ⟨-, hne, hget⟩
    have hc := Memory.mem_of_get_ne (hget ▸ hne)
    rwa [hget] at hc

/-- Settles O45: such memories list the same cells, and a list sorted by strictly rising addresses is determined by what
it lists. -/
theorem memoriesThatReadAlikeAreEqual : Obligations.MemoriesThatReadAlikeAreEqual := by
  intro m m' hm hm' hread
  have hmem : ∀ c : Nat × Word, c ∈ m ↔ c ∈ m' := fun c => by
    rw [Memory.mem_iff_get hm, Memory.mem_iff_get hm']
    refine and_congr_right fun hlt => ?_
    have hc := hread (BitVec.ofNat 16 c.1)
    rw [BitVec.toNat_ofNat, Nat.mod_eq_of_lt (show c.1 < 2 ^ 16 from hlt)] at hc
    rw [hc]
  have : Std.Antisymm fun x y : Nat × Word => x.1 < y.1 := ⟨fun _ _ hxy hyx => absurd hxy hyx.asymm⟩
  have : Std.Irrefl fun x y : Nat × Word => x.1 < y.1 := ⟨fun x => lt_irrefl x.1⟩
  exact hm.1.eq_of_mem_iff hm'.1 hmem

/-! ### The general registers (10_state R20, R22) -/

theorem SameRegsBut.of_regs {s t : State} (h : t.regs = s.regs) (written : List Reg) : SameRegsBut written s t :=
  fun r _ => congrArg (·.get r) h

theorem SameRegsBut.trans {s t u : State} {l l' : List Reg} (hst : SameRegsBut l s t) (htu : SameRegsBut l' t u) :
    SameRegsBut (l ++ l') s u := fun r hr => by
  rw [List.mem_append, not_or] at hr
  rw [htu r hr.2, hst r hr.1]

theorem State.writeDest_sameRegsBut (s : State) (dr : Reg) (v : Word) : SameRegsBut [dr] s (s.writeDest dr v) :=
  fun r hr => by rw [State.writeDest_reg, if_neg (by simpa using hr)]

theorem State.link_sameRegsBut (s : State) : SameRegsBut [.r7] s s.link :=
  fun r hr => by rw [State.link_reg, if_neg (by simpa using hr)]

/-- A begun step writes R0 at most (44_trap R131, R134). -/
theorem State.resume_sameRegsBut (s : State) (w : PendingStep) : SameRegsBut [.r0] s (s.resume w) := by
  rcases s.resume_cases w with ⟨a, -, h⟩ | ⟨-, h⟩ | ⟨c, cs, -, h⟩ <;> rw [h]
  · exact .of_regs (by simp) _
  · exact .of_regs rfl _
  · intro r hr
    exact (State.setReg_reg _ _ _ r).trans (if_neg (by simpa using hr))

/-- Settles O51: the instructions write general registers by `writeDest`, by the link, and by the `ConsoleRead` of GETC
and IN only. -/
theorem registerWritesFollowTheTable : Obligations.RegisterWritesFollowTheTable := by
  intro i s t h
  cases i with
  | addReg | addImm | andReg | andImm | not | lea => cases h; exact s.writeDest_sameRegsBut _ _
  | ld | ldr =>
    cases h
    exact SameRegsBut.trans (.of_regs (s.afterRead_regs _) []) (State.writeDest_sameRegsBut _ _ _)
  | ldi =>
    cases h
    exact SameRegsBut.trans (.of_regs (by simp) []) (State.writeDest_sameRegsBut _ _ _)
  | jsr | jsrr | trapOut | trapHalt | trapNone80 | trapNone40 | trapNone00 | trapNone30 | trapNone28 | trapNone26 =>
    cases h
    exact s.link_sameRegsBut
  | trapPuts | trapPutsp =>
    cases h
    exact s.link_sameRegsBut.trans (.of_regs (by simp) [])
  | trapGetc => cases h; exact s.link_sameRegsBut.trans (s.link.resume_sameRegsBut .getc)
  | trapIn =>
    cases h
    exact s.link_sameRegsBut.trans ((s.link.consoleWrites s.inPrompt).resume_sameRegsBut .inn)
  | br n z p off =>
    cases h
    split <;> exact .of_regs rfl _
  | st | str | jmp | rti | res => cases h; exact .of_regs rfl _
  | sti => cases h; exact .of_regs (by simp) _

/-- Settles O7: a register file reads back its last write, and different selectors name different registers. -/
theorem registersReadBackWhatWasWritten : Obligations.RegistersReadBackWhatWasWritten := by
  intro s b b' v
  simp only [State.setReg_reg, Reg.ofBits_inj]

/-! ### The program counter (10_state R28) -/

/-- An instruction other than BR, JMP, JSR and JSRR leaves the incremented `pc`. -/
theorem exec_pc {i : Instr} {s t : State} (hi : movesPc i = false) (h : exec i s = .next t) : t.pc = s.pc := by
  cases i with
  | br | jmp | jsr | jsrr => cases hi
  | ld | ldr | ldi | sti | trapPuts | trapPutsp => cases h; simp
  | trapGetc => cases h; exact (s.link.resume_same .getc).1
  | trapIn => cases h; exact ((s.link.consoleWrites s.inPrompt).resume_same .inn).1
  | addReg | addImm | andReg | andImm | not | lea | st | str | rti | res | trapOut | trapHalt
  | trapNone80 | trapNone40 | trapNone00 | trapNone30 | trapNone28 | trapNone26 => cases h; rfl

/-- Settles O53: `exec_pc`, and the targets of the four instructions that move `pc`. -/
theorem onlyControlTransferMovesPc : Obligations.OnlyControlTransferMovesPc := by
  intro i s t h
  refine ⟨fun hi => exec_pc hi h, ?_, ?_, ?_, ?_⟩
  · rintro n z p off rfl
    cases h
    split <;> rfl
  · rintro base rfl
    cases h; rfl
  · rintro off rfl
    cases h; rfl
  · rintro base rfl
    cases h; rfl

end Sys2Proof.Machine

/-! ## Memory (20_memory)

`ReadsCell` says what a read does; `State.memRead_readsCell` shows that `memRead` does that, and the round trip of a
write and a read follows. Which cells an instruction changes is put together from the operations it is made of, by
transitivity of `SameMemoryButKeyboard`. -/

namespace Sys2Proof.Machine

/-! ### MemWrite and MemRead (20_memory R41, R42, R43) -/

/-- Settles O42, by the law of a store to one cell. -/
theorem memWriteStoresOneCell : Obligations.MemWriteStoresOneCell :=
  fun _ addr v hs => ⟨State.memWrite_cell hs addr v, State.setCell_wf hs addr v, rfl⟩

/-- A poll changes nothing but memory and the input stream. -/
theorem State.kbdPoll_frame (s : State) :
    { s.kbdPoll with mem := s.mem, consoleIn := s.consoleIn, arrivals := s.arrivals } = s := by
  rcases s.kbdPoll_cases with ⟨-, h⟩ | ⟨c, cs, -, h⟩ <;> rw [h] <;> rfl

/-- A read changes nothing but memory and the input stream. -/
theorem State.afterRead_frame (s : State) (a : Word) :
    { s.afterRead a with mem := s.mem, consoleIn := s.consoleIn, arrivals := s.arrivals } = s := by
  rw [State.afterRead]
  split
  · exact s.kbdPoll_frame
  · rfl

/-- `memRead` does what 20_memory R42 and R43 say of a read. -/
theorem State.memRead_readsCell {s : State} (hs : s.mem.wf) (a : Word) :
    ReadsCell s a (s.memRead a).1 (s.memRead a).2 where
  plain ha := by
    rw [State.memRead_fst, State.memRead_snd, State.afterRead_plain s ha]
    exact ⟨rfl, fun _ => rfl, rfl, rfl⟩
  no_key ha hi := by
    subst ha
    rw [State.memRead_fst, State.memRead_snd, State.afterRead_kbsr]
    have hcell := State.kbdPoll_cell_empty hs hi
    exact ⟨hcell Config.kbsr, hcell, by simp [hi], by simp⟩
  key ha c cs hi := by
    subst ha
    rw [State.memRead_fst, State.memRead_snd, State.afterRead_kbsr]
    have hcell := State.kbdPoll_cell_ready hs hi
    have hne : ∀ b, b = Config.kbdr → b ≠ Config.kbsr := by rintro b rfl; decide
    exact ⟨hcell Config.kbsr, fun b => (hcell b).trans (ite_ite_comm _ _ _ _ (hne b)), by simp [hi], by simp⟩

/-- Settles O43: the three ways of a read, and its frame. -/
theorem memReadPollsOnlyAtKbsr : Obligations.MemReadPollsOnlyAtKbsr :=
  fun s addr hs => ⟨State.memRead_readsCell hs addr, State.afterRead_wf hs addr, s.afterRead_frame addr⟩

/-! ### A read after a write (20_memory R47, R57) -/

/-- A read of a cell that is not KBSR yields what was written to it. -/
theorem State.memRead_memWrite_same {s : State} (hs : s.mem.wf) {a : Word} (ha : a ≠ Config.kbsr) (v : Word) :
    ((s.memWrite a v).memRead a).1 = v := by
  rw [State.memRead_fst, State.afterRead_plain _ ha, State.memWrite_cell hs, if_pos rfl]

/-- A read leaves a cell alone: any cell but KBSR, unless it is KBDR and the read polls with a key pending. -/
theorem State.afterRead_cell_same {s : State} (hs : s.mem.wf) {a b : Word} (ha : a ≠ Config.kbsr)
    (h : a ≠ Config.kbdr ∨ b ≠ Config.kbsr ∨ s.incoming = []) : (s.afterRead b).cell a = s.cell a := by
  rcases h with ha' | hb | hi
  · exact State.afterRead_cell_other hs b ha ha'
  · rw [State.afterRead_plain s hb]
  · by_cases hb : b = Config.kbsr
    · subst hb
      rw [State.afterRead_kbsr, State.kbdPoll_cell_empty hs hi, if_neg ha]
    · rw [State.afterRead_plain s hb]

/-- A read of KBSR yields the result of the poll, whatever is stored there. -/
theorem State.memRead_kbsr {s : State} (hs : s.mem.wf) :
    (s.memRead Config.kbsr).1 = if s.incoming = [] then 0x0000#16 else 0x8000#16 := by
  have hread := State.memRead_readsCell hs Config.kbsr
  rcases s.incoming_cases with hi | ⟨c, cs, hi⟩
  · rw [(hread.no_key rfl hi).1, if_pos hi]
  · rw [(hread.key rfl c cs hi).1, if_neg (by simp [hi])]

/-- Settles O44: the write stores, and a read disturbs no stored cell but the keyboard's. -/
theorem readAfterWriteReturnsTheValue : Obligations.ReadAfterWriteReturnsTheValue := by
  intro s a v hs
  have hwf : (s.memWrite a v).mem.wf := State.setCell_wf hs a v
  refine ⟨fun ha => State.memRead_memWrite_same hs ha v, fun b ha h => ?_, ?_⟩
  · rw [State.memRead_snd, State.afterRead_cell_same hwf ha h, State.memWrite_cell hs, if_pos rfl]
  · rintro rfl
    exact State.memRead_kbsr hwf

/-- Settles O46: ST with offset 0 writes the cell at `pc`, and the fetch there reads it back. -/
theorem nextFetchSeesTheStore : Obligations.NextFetchSeesTheStore := by
  intro s sr hs hpc
  have haddr : pcRelative s.pc 0#9 = s.pc := BitVec.add_zero s.pc
  refine ⟨_, rfl, rfl, ?_⟩
  show ((s.memWrite (pcRelative s.pc 0#9) (s.reg sr)).memRead s.pc).1 = s.reg sr
  rw [haddr, State.memRead_memWrite_same hs hpc]

/-! ### Which instructions change memory (20_memory R45) -/

theorem SameMemoryButKeyboard.of_mem {s t : State} (h : t.mem = s.mem) : SameMemoryButKeyboard s t :=
  fun a _ _ => congrArg (·.get a.toNat) h

theorem SameMemoryButKeyboard.trans {s t u : State} (hst : SameMemoryButKeyboard s t)
    (htu : SameMemoryButKeyboard t u) : SameMemoryButKeyboard s u :=
  fun a h1 h2 => (htu a h1 h2).trans (hst a h1 h2)

theorem State.afterRead_sameMemoryButKeyboard {s : State} (hs : s.mem.wf) (a : Word) :
    SameMemoryButKeyboard s (s.afterRead a) :=
  fun _ h1 h2 => State.afterRead_cell_other hs a h1 h2

theorem State.puts_sameMemoryButKeyboard {s : State} (hs : s.mem.wf) (a : Word) :
    SameMemoryButKeyboard s (s.puts a) :=
  fun _ h1 h2 => State.puts_cell_other a hs h1 h2

theorem State.putsp_sameMemoryButKeyboard {s : State} (hs : s.mem.wf) (a : Word) :
    SameMemoryButKeyboard s (s.putsp a) :=
  fun _ h1 h2 => State.putsp_cell_other a hs h1 h2

/-- A begun step changes memory by the reads of PUTS at most. -/
theorem State.resume_sameMemoryButKeyboard {s : State} (hs : s.mem.wf) (w : PendingStep) :
    SameMemoryButKeyboard s (s.resume w) := by
  rcases s.resume_cases w with ⟨a, -, h⟩ | ⟨-, h⟩ | ⟨c, cs, -, h⟩ <;> rw [h]
  · exact State.puts_sameMemoryButKeyboard (s := s.setWaiting none) hs a
  · exact .of_mem rfl
  · exact .of_mem rfl

/-- Settles O54: the loads and the string routines change memory by their reads at most, the other instructions that
are no stores not at all. -/
theorem onlyStoresWriteMemory : Obligations.OnlyStoresWriteMemory := by
  intro i s t hs h hi
  cases i with
  | st | sti | str => cases hi
  | ld | ldr => cases h; exact State.afterRead_sameMemoryButKeyboard hs _
  | ldi =>
    cases h
    exact (State.afterRead_sameMemoryButKeyboard hs _).trans
      (State.afterRead_sameMemoryButKeyboard (State.afterRead_wf hs _) _)
  | trapGetc => cases h; exact State.resume_sameMemoryButKeyboard (s := s.link) hs .getc
  | trapIn => cases h; exact State.resume_sameMemoryButKeyboard (s := s.link.consoleWrites s.inPrompt) hs .inn
  | trapPuts => cases h; exact State.puts_sameMemoryButKeyboard (s := s.link) hs _
  | trapPutsp => cases h; exact State.putsp_sameMemoryButKeyboard (s := s.link) hs _
  | br n z p off =>
    cases h
    split <;> exact .of_mem rfl
  | addReg | addImm | andReg | andImm | not | lea | jmp | jsr | jsrr | rti | res | trapOut | trapHalt
  | trapNone80 | trapNone40 | trapNone00 | trapNone30 | trapNone28 | trapNone26 => cases h; exact .of_mem rfl

/-! ### No step faults (20_memory R40, 60_exceptions R160) -/

/-- Every arm of `exec` answers a next state. -/
theorem exec_next (i : Instr) (s : State) : ∃ t, exec i s = .next t := by
  cases i <;> exact ⟨_, rfl⟩

/-- Settles O47: three branches of a step answer a next state themselves, the fourth answers what `exec` answers. -/
theorem everyStepAnswersNext : Obligations.EveryStepAnswersNext := by
  intro s
  rcases step_cases s with ⟨-, h⟩ | ⟨w, -, -, h⟩ | ⟨-, -, -, h⟩ | ⟨-, -, -, h⟩
  · exact ⟨_, h⟩
  · exact ⟨_, h⟩
  · exact ⟨_, h⟩
  · rw [h]
    exact exec_next _ _

end Sys2Proof.Machine

/-! ## Encoding (30_encoding)

`decode_eq_iff` says what the decoder does: a word decodes to a well-formed instruction exactly when it agrees with the
instruction's encoding on the bits the decoder reads (`Instr.readBits`: the field bits, and for RTI and RES the low bits
too). From right to left, each field of the word is read off the encoding; from left to right, the word is put together
from its fields again. The round trips, the ignored bits and the opcode table follow. -/

namespace Sys2Proof

/-! ### A field put back where it was read is the word under the field's mask (30_encoding R63) -/

theorem place_extractLsb' (w : Word) (pos n : Nat) :
    place pos (w.extractLsb' pos n) = w &&& place pos (BitVec.allOnes n) := by
  apply BitVec.eq_of_getLsbD_eq
  intro i hi
  rw [BitVec.getLsbD_and, place_getLsbD _ _ _ hi, place_getLsbD _ _ _ hi, BitVec.getLsbD_extractLsb',
    BitVec.getLsbD_allOnes]
  by_cases hpos : pos ≤ i
  · simp [hpos, Nat.add_sub_cancel' hpos, Bool.and_comm]
  · simp [hpos]

theorem place_ofBool_getLsbD (w : Word) (k : Nat) :
    place k (BitVec.ofBool (w.getLsbD k)) = w &&& place k 1#1 := by
  have hbit : BitVec.ofBool (w.getLsbD k) = w.extractLsb' k 1 := by
    apply BitVec.eq_of_getLsbD_eq
    intro i hi
    obtain rfl : i = 0 := by omega
    simp
  rw [hbit, place_extractLsb']
  rfl

theorem place_fieldDR (w : Word) : place 9 (fieldDR w).bits = w &&& 0x0E00#16 := by
  rw [fieldDR, Reg.bits_ofBits]
  exact place_extractLsb' w 9 3

theorem place_fieldBase (w : Word) : place 6 (fieldBase w).bits = w &&& 0x01C0#16 := by
  rw [fieldBase, Reg.bits_ofBits]
  exact place_extractLsb' w 6 3

theorem place_fieldSR2 (w : Word) : place 0 (fieldSR2 w).bits = w &&& 0x0007#16 := by
  rw [fieldSR2, Reg.bits_ofBits]
  exact place_extractLsb' w 0 3

/-- The number of an opcode (30_encoding R62). -/
def Opcode.bits : Opcode → BitVec 4
  | .br => 0x0#4
  | .add => 0x1#4
  | .ld => 0x2#4
  | .st => 0x3#4
  | .jsr => 0x4#4
  | .and => 0x5#4
  | .ldr => 0x6#4
  | .str => 0x7#4
  | .rti => 0x8#4
  | .not => 0x9#4
  | .ldi => 0xA#4
  | .sti => 0xB#4
  | .jmp => 0xC#4
  | .res => 0xD#4
  | .lea => 0xE#4
  | .trap => 0xF#4

theorem Opcode.bits_ofBits (b : BitVec 4) : (Opcode.ofBits b).bits = b := by
  revert b
  decide

theorem place_opcode (w : Word) : place 12 (Opcode.ofBits (opcodeBits w)).bits = w &&& 0xF000#16 := by
  rw [Opcode.bits_ofBits]
  exact place_extractLsb' w 12 4

/-- Two parts of a word make the part under both masks. -/
theorem or_eq_and_or {w m m' p p' : Word} (h : p = w &&& m) (h' : p' = w &&& m') :
    p ||| p' = w &&& (m ||| m') := by
  rw [h, h', BitVec.and_or_distrib_left]

/-! ### The trap vectors (30_encoding R70, R71) -/

/-! Facts about each of the 256 vectors, by evaluation. -/

theorem wellFormed_decodeTrap : ∀ v : Byte, (decodeTrap v).wellFormed = true := by decide

theorem encode_decodeTrap : ∀ v : Byte, encode (decodeTrap v) = encodeTrap v := by decide

theorem decodeTrap_row_covers : ∀ v : Byte, (decodeTrap v).row.covers (encodeTrap v) = true := by decide

/-- The row of a TRAP fixes bits of the opcode and the vector only. -/
theorem decodeTrap_row_mask : ∀ v : Byte, 0xF0FF#16 &&& (decodeTrap v).row.mask = (decodeTrap v).row.mask := by decide

/-- A vector in the range of a row without a routine goes to that row (44_trap R137). -/
theorem decodeTrap_noRoutine : ∀ v : Byte, ∀ i ∈ [.trapNone80 v, .trapNone40 v, .trapNone00 v, .trapNone30 v,
    .trapNone28 v, .trapNone26 v], i.wellFormed = true → decodeTrap v = i := by decide

/-! ### The bits the decoder reads -/

/-- The bits of a word the decoder reads for an instruction: those its fields cover, and all of RTI and RES, whose
ignored bits the model keeps (45_reserved R152). -/
def Instr.readBits : Instr → Word
  | .rti _ | .res _ => 0xFFFF#16
  | i => i.fieldBits

/-- Field bits are read, and no others but those of RTI and RES. -/
theorem Instr.readBits_cases (i : Instr) :
    (∃ low, i = .rti low) ∨ (∃ low, i = .res low) ∨ i.readBits = i.fieldBits := by
  cases i with
  | rti low => exact .inl ⟨low, rfl⟩
  | res low => exact .inr (.inl ⟨low, rfl⟩)
  | _ => exact .inr (.inr rfl)

theorem Instr.readBits_and_fieldBits (i : Instr) : i.readBits &&& i.fieldBits = i.fieldBits := by
  rcases i.readBits_cases with ⟨low, rfl⟩ | ⟨low, rfl⟩ | h
  · exact (by decide : 0xFFFF#16 &&& 0xF000#16 = 0xF000#16)
  · exact (by decide : 0xFFFF#16 &&& 0xF000#16 = 0xF000#16)
  · rw [h, BitVec.and_self]

theorem readBits_decodeTrap : ∀ v : Byte, (decodeTrap v).readBits = 0xF0FF#16 := by decide

/-! ### From the word to the encoding of what it decodes to -/

theorem wellFormed_decode (w : Word) : (decode w).wellFormed = true := by
  rw [decode]
  cases Opcode.ofBits (opcodeBits w) with
  | trap => exact wellFormed_decodeTrap _
  | add | and | jsr =>
    dsimp only
    split <;> rfl
  | br | ld | st | ldr | str | rti | not | ldi | sti | jmp | res | lea => rfl

/-- The encoding of what a word decodes to is the word under the bits read: the fields are put back one by one. NOT has
its ignored bits written 1 (30_encoding R80). -/
theorem encode_decode_eq (w : Word) : encode (decode w) = w &&& (decode w).readBits ∨
    encode (decode w) = w &&& 0xFFC0#16 ||| 0x003F#16 ∧ (decode w).readBits = 0xFFC0#16 := by
  have hop := place_opcode w
  have hoff : place 0 (fieldPCoffset9 w) = w &&& 0x01FF#16 := place_extractLsb' w 0 9
  have hoff6 : place 0 (fieldOffset6 w) = w &&& 0x003F#16 := place_extractLsb' w 0 6
  have hlow : place 0 (fieldLow12 w) = w &&& 0x0FFF#16 := place_extractLsb' w 0 12
  rw [decode]
  generalize Opcode.ofBits (opcodeBits w) = op at hop ⊢
  have hdr := or_eq_and_or hop (place_fieldDR w)
  have hdrBase := or_eq_and_or hdr (place_fieldBase w)
  cases op with
  | not => exact .inr ⟨congrArg (· ||| 0x003F#16) hdrBase, rfl⟩
  | ld | st | ldi | sti | lea => exact .inl (or_eq_and_or hdr hoff)
  | ldr | str => exact .inl (or_eq_and_or hdrBase hoff6)
  | jmp => exact .inl (or_eq_and_or hop (place_fieldBase w))
  | rti | res => exact .inl (or_eq_and_or hop hlow)
  | br =>
    have hn := or_eq_and_or hop (place_ofBool_getLsbD w 11)
    have hnz := or_eq_and_or hn (place_ofBool_getLsbD w 10)
    have hnzp := or_eq_and_or hnz (place_ofBool_getLsbD w 9)
    exact .inl (or_eq_and_or hnzp hoff)
  | jsr =>
    have hbit := or_eq_and_or hop (place_ofBool_getLsbD w 11)
    generalize w.getLsbD 11 = b at hbit ⊢
    cases b with
    | true => exact .inl (or_eq_and_or hbit (place_extractLsb' w 0 11))
    | false => exact .inl (or_eq_and_or hbit (place_fieldBase w))
  | add | and =>
    have hbit := or_eq_and_or hdrBase (place_ofBool_getLsbD w 5)
    generalize w.getLsbD 5 = b at hbit ⊢
    cases b with
    | true => exact .inl (or_eq_and_or hbit (place_extractLsb' w 0 5))
    | false => exact .inl (or_eq_and_or hbit (place_fieldSR2 w))
  | trap =>
    left
    rw [encode_decodeTrap, readBits_decodeTrap]
    exact or_eq_and_or hop (place_extractLsb' w 0 8)

theorem encode_decode_readBits (w : Word) :
    encode (decode w) &&& (decode w).readBits = w &&& (decode w).readBits := by
  rcases encode_decode_eq w with h | ⟨h, hbits⟩
  · rw [h, BitVec.and_assoc, BitVec.and_self]
  · rw [h, hbits, BitVec.and_or_distrib_right, BitVec.and_assoc, BitVec.and_self]
    exact BitVec.or_zero

/-- Settles O3: the word and the encoding agree on the bits read, and the field bits are among those. -/
theorem encodeRestoresEveryFieldBit : Obligations.EncodeRestoresEveryFieldBit := by
  intro w
  refine ⟨wellFormed_decode w, ?_⟩
  rw [← Instr.readBits_and_fieldBits, ← BitVec.and_assoc, encode_decode_readBits, BitVec.and_assoc]

/-! ### From the encoding to what the word decodes to -/

theorem extractLsb'_eq_of_and_eq {u v m : Word} (h : u &&& m = v &&& m) {s n : Nat}
    (hm : m.extractLsb' s n = BitVec.allOnes n) : u.extractLsb' s n = v.extractLsb' s n := by
  simpa [BitVec.extractLsb'_and, hm] using congrArg (·.extractLsb' s n) h

theorem getLsbD_eq_of_and_eq {u v m : Word} (h : u &&& m = v &&& m) {k : Nat} (hm : m.getLsbD k = true) :
    u.getLsbD k = v.getLsbD k := by
  simpa only [BitVec.getLsbD_and, hm, Bool.and_true] using congrArg (·.getLsbD k) h

theorem decode_of_trap {w : Word} (h : opcodeBits w = 0xF#4) : decode w = decodeTrap (fieldTrapvect8 w) := by
  rw [decode, h]
  rfl

theorem fieldTrapvect8_encodeTrap (v : Byte) : fieldTrapvect8 (encodeTrap v) = v := by
  simp [fieldTrapvect8, encodeTrap, BitVec.extractLsb'_or, extract_place, extract_place_other]

theorem decode_of_trapBits {w : Word} {v : Byte} (h : w &&& 0xF0FF#16 = encodeTrap v &&& 0xF0FF#16) :
    decode w = decodeTrap v := by
  have hop : opcodeBits w = 0xF#4 :=
    (extractLsb'_eq_of_and_eq h (by decide)).trans (Laws.EncodeOpcode.opcodeBits_encodeTrap v)
  have hvect : fieldTrapvect8 w = v := (extractLsb'_eq_of_and_eq h (by decide)).trans (fieldTrapvect8_encodeTrap v)
  rw [decode_of_trap hop, hvect]

/-- A word that agrees with an encoding on the bits read decodes to the instruction: each field of the word is the field
of the encoding, which is the one placed there. -/
theorem decode_of_readBits {i : Instr} (hi : i.wellFormed = true) {w : Word}
    (h : w &&& i.readBits = encode i &&& i.readBits) : decode w = i := by
  have hfield {s n : Nat} := extractLsb'_eq_of_and_eq h (s := s) (n := n)
  have hbit {k : Nat} := getLsbD_eq_of_and_eq h (k := k)
  cases i with
  | trapGetc | trapOut | trapPuts | trapIn | trapPutsp | trapHalt => exact decode_of_trapBits h
  | trapNone80 v | trapNone40 v | trapNone00 v | trapNone30 v | trapNone28 v | trapNone26 v =>
    exact (decode_of_trapBits h).trans (decodeTrap_noRoutine v _ (by simp) hi)
  | br | addReg | addImm | ld | st | jsr | jsrr | andReg | andImm | ldr | str | rti | not | ldi | sti | jmp | res
  | lea =>
    simp only [Instr.readBits, Instr.fieldBits] at hfield hbit
    simp (disch := decide) [decode, opcodeBits, fieldDR, fieldBase, fieldSR2, fieldImm5, fieldOffset6, fieldPCoffset9,
      fieldPCoffset11, fieldLow12, hfield, hbit, encode, BitVec.extractLsb'_or, extract_place, extract_place_other,
      Opcode.ofBits, place_getLsbD, -BitVec.getLsbD_eq_getElem]

/-- What the decoder does, on all words. -/
theorem decode_eq_iff {w : Word} {i : Instr} :
    decode w = i ↔ i.wellFormed = true ∧ w &&& i.readBits = encode i &&& i.readBits := by
  constructor
  · rintro rfl
    exact ⟨wellFormed_decode w, (encode_decode_readBits w).symm⟩
  · rintro ⟨hi, h⟩
    exact decode_of_readBits hi h

/-- Settles O1: an encoding agrees with itself on the bits read. -/
theorem decodeInvertsEncode : Obligations.DecodeInvertsEncode :=
  fun _ hi => decode_eq_iff.2 ⟨hi, rfl⟩

/-- Settles O5, by evaluating the decoder on the fourteen words. -/
theorem handWrittenWordsDecode : Obligations.HandWrittenWordsDecode := by
  unfold Obligations.HandWrittenWordsDecode
  decide

/-! ### Ignored bits -/

theorem opcodeBits_of_and_eq {u w : Word} (h : u &&& 0xF000#16 = w &&& 0xF000#16) {op : BitVec 4}
    (hu : opcodeBits u = op) : opcodeBits w = op :=
  (extractLsb'_eq_of_and_eq h (by decide)).symm.trans hu

theorem decode_of_rti {w : Word} (h : opcodeBits w = 0x8#4) : decode w = .rti (fieldLow12 w) := by
  rw [decode, h]
  rfl

theorem decode_of_res {w : Word} (h : opcodeBits w = 0xD#4) : decode w = .res (fieldLow12 w) := by
  rw [decode, h]
  rfl

/-- Settles O4: on the field bits `w'` agrees with `w`, and `w` with the encoding of its instruction; so `w'` decodes to
that instruction where no other bits are read, and RTI and RES are told by the opcode. -/
theorem ignoredBitsChangeNothing : Obligations.IgnoredBitsChangeNothing := by
  refine ⟨fun w w' h => ?_, fun l l' s => ⟨⟨_, _, rfl, rfl, rfl⟩, ⟨_, _, rfl, rfl, rfl⟩⟩⟩
  obtain ⟨hi, hw⟩ := encodeRestoresEveryFieldBit w
  have hw' := hw.trans h
  generalize decode w = i at hi hw' ⊢
  rcases i.readBits_cases with ⟨low, rfl⟩ | ⟨low, rfl⟩ | hbits
  · exact .inr (.inl ⟨_, _, rfl, decode_of_rti (opcodeBits_of_and_eq hw' (opcodeBits_rti low))⟩)
  · exact .inr (.inr ⟨_, _, rfl, decode_of_res (opcodeBits_of_and_eq hw' (opcodeBits_res low))⟩)
  · exact .inl (decode_of_readBits hi (hbits ▸ hw'.symm))

/-! ### The opcode table (30_encoding R71) -/

theorem Instr.row_mem_opcodeTable (i : Instr) : i.row ∈ opcodeTable := by
  cases i <;> exact List.elem_iff.1 rfl

theorem decode_row_covers (w : Word) : (decode w).row.covers w = true := by
  have hop := place_opcode w
  rw [decode]
  generalize Opcode.ofBits (opcodeBits w) = op at hop ⊢
  rw [TableRow.covers, beq_iff_eq]
  cases op with
  | br | ld | st | ldr | str | ldi | sti | jmp | lea | rti | res | not => exact hop.symm
  | jsr =>
    have hbit := or_eq_and_or hop (place_ofBool_getLsbD w 11)
    generalize w.getLsbD 11 = b at hbit ⊢
    cases b <;> exact hbit.symm
  | add | and =>
    have hbit := or_eq_and_or hop (place_ofBool_getLsbD w 5)
    generalize w.getLsbD 5 = b at hbit ⊢
    cases b <;> exact hbit.symm
  | trap =>
    have hw : encodeTrap (fieldTrapvect8 w) = w &&& 0xF0FF#16 := or_eq_and_or hop (place_extractLsb' w 0 8)
    have hrow := decodeTrap_row_covers (fieldTrapvect8 w)
    rw [TableRow.covers, beq_iff_eq, hw, BitVec.and_assoc, decodeTrap_row_mask] at hrow
    exact hrow

/-- Two rows that agree on the bits both fix are the same row. -/
theorem opcodeTable_eq_of_agree :
    ∀ r ∈ opcodeTable, ∀ r' ∈ opcodeTable, r.pattern &&& r'.mask = r'.pattern &&& r.mask → r = r' := by decide

theorem eq_of_covers {r r' : TableRow} {w : Word} (hr : r ∈ opcodeTable) (hr' : r' ∈ opcodeTable)
    (hw : r.covers w = true) (hw' : r'.covers w = true) : r = r' := by
  rw [TableRow.covers, beq_iff_eq] at hw hw'
  apply opcodeTable_eq_of_agree r hr r' hr'
  rw [← hw, ← hw', BitVec.and_assoc, BitVec.and_assoc, BitVec.and_comm r.mask]

/-- Settles O2: the row of the decoded instruction covers the word, and no two rows cover one word. -/
theorem everyWordMatchesExactlyOneTableRow : Obligations.EveryWordMatchesExactlyOneTableRow :=
  fun w => ⟨(decode w).row_mem_opcodeTable, decode_row_covers w,
    fun _ hr hw => eq_of_covers hr (decode w).row_mem_opcodeTable hw (decode_row_covers w)⟩

end Sys2Proof

/-! ## The step and the flags (40_step_and_flags)

`exec_run_cases` says what an instruction does to the run state, `exec_cond_of_definesFlags` and `exec_cond` what it does
to `cond`; the statements about the step follow from them and from its four branches (`step_cases`). The flag itself is
put in numbers once, in `condOf_eq`. -/

namespace Sys2Proof.Machine

/-! ### Sign extension and the flag of a value (40_step R93, R95) -/

/-- Settles O6: extension keeps the signed value, and that of a field depends on its top bit. -/
theorem signExtensionKeepsTheSignedValue : Obligations.SignExtensionKeepsTheSignedValue := by
  intro k f _ hk
  rw [sext, BitVec.toInt_signExtend_of_le hk.le, BitVec.toInt_eq_msb_cond, BitVec.msb_eq_decide]
  by_cases hf : f.toNat < 2 ^ (k - 1)
  · simp [hf, Nat.not_le.2 hf]
  · simp [hf, Nat.not_lt.1 hf]

/-- The flag of a value by its number: bit 15 is 1 from 0x8000 on. -/
theorem condOf_eq (v : Word) :
    condOf v = if 0x8000 ≤ v.toNat then Cond.neg else if v.toNat = 0 then Cond.zro else Cond.pos := by
  have hsign : v.getLsbD 15 = decide (0x8000 ≤ v.toNat) :=
    v.msb_eq_getLsbD_last.symm.trans v.msb_eq_decide
  have hzero : v = 0#16 ↔ v.toNat = 0 := BitVec.toNat_eq
  simp only [condOf, hsign, hzero, decide_eq_true_eq]

/-- Settles O11, by `condOf_eq`; setcc writes `cond` only. -/
theorem setccFollowsTheSign : Obligations.SetccFollowsTheSign :=
  fun s r => ⟨condOf_eq (s.reg r), rfl⟩

/-! ### Which instructions write the flags (40_step R93, 10_state R25) -/

/-- A flag-defining instruction leaves in `cond` the flag of its DR. -/
theorem exec_cond_of_definesFlags {i : Instr} {s t : State} (hi : definesFlags i = true) (h : exec i s = .next t) :
    ∃ dr, registersWritten i = [dr] ∧ t.cond = condOf (t.reg dr) := by
  cases i with
  | addReg dr | addImm dr | andReg dr | andImm dr | not dr | ld dr | ldi dr | ldr dr | lea dr =>
    cases h
    exact ⟨dr, rfl, rfl⟩
  | br | st | jsr | jsrr | str | rti | sti | jmp | res | trapGetc | trapOut | trapPuts | trapIn | trapPutsp | trapHalt
  | trapNone80 | trapNone40 | trapNone00 | trapNone30 | trapNone28 | trapNone26 => cases hi

theorem State.resume_cond (s : State) (w : PendingStep) : (s.resume w).cond = s.cond := by
  obtain ⟨-, hcond, -⟩ := s.resume_same w
  exact hcond

/-- An instruction that defines no flags leaves `cond`. -/
theorem exec_cond {i : Instr} {s t : State} (hi : definesFlags i = false) (h : exec i s = .next t) :
    t.cond = s.cond := by
  cases i with
  | addReg | addImm | andReg | andImm | not | ld | ldi | ldr | lea => cases hi
  | sti | trapPuts | trapPutsp => cases h; simp
  | trapGetc => cases h; exact s.link.resume_cond .getc
  | trapIn => cases h; exact (s.link.consoleWrites s.inPrompt).resume_cond .inn
  | br n z p off =>
    cases h
    split <;> rfl
  | st | str | jmp | jsr | jsrr | rti | res | trapOut | trapHalt
  | trapNone80 | trapNone40 | trapNone00 | trapNone30 | trapNone28 | trapNone26 => cases h; rfl

/-- Settles O52: `exec_cond_of_definesFlags`, with the flag in numbers, and `exec_cond`. -/
theorem onlyFlagDefiningInstructionsWriteCond : Obligations.OnlyFlagDefiningInstructionsWriteCond := by
  intro i s t h
  refine ⟨fun hi => ?_, fun hi => exec_cond hi h⟩
  obtain ⟨dr, hdr, hcond⟩ := exec_cond_of_definesFlags hi h
  exact ⟨dr, hdr, hcond.trans (condOf_eq _)⟩

/-! ### The step (40_step R90, R98) -/

/-- Settles O8: the branch of a step that fetches. -/
theorem stepRunsTheDecodedInstruction : Obligations.StepRunsTheDecodedInstruction := by
  rintro s i ⟨hrun, hw⟩ ha rfl
  exact step_of_fetch hrun hw ha

/-- Settles O9, by induction on the number of steps. -/
theorem stoppedIsTerminal : Obligations.StoppedIsTerminal := by
  intro s n hs
  have hstep : step s = .next s := step_of_stopped hs
  refine ⟨hstep, ?_⟩
  induction n with
  | zero => rfl
  | succ n ih => exact (run_succ_of_next core n s s hstep).trans ih

/-! ### How a machine comes to stop (10_state R26, 40_step R97) -/

theorem State.resume_run (s : State) (w : PendingStep) : (s.resume w).run = s.run := by
  obtain ⟨-, -, hrun, -⟩ := s.resume_same w
  exact hrun

/-- An instruction leaves the run state, or it is HALT, RTI or RES and records its cause. -/
theorem exec_run_cases {i : Instr} {s t : State} (h : exec i s = .next t) :
    t.run = s.run ∨ (i = .trapHalt ∧ t.cause = some .halt) ∨
    ((∃ l, i = .rti l ∨ i = .res l) ∧
      ∃ op instr addr, t.cause = some (.unsupportedInstruction op instr addr)) := by
  cases i with
  | trapHalt => cases h; exact .inr (.inl ⟨rfl, rfl⟩)
  | rti low => cases h; exact .inr (.inr ⟨⟨low, .inl rfl⟩, _, _, _, rfl⟩)
  | res low => cases h; exact .inr (.inr ⟨⟨low, .inr rfl⟩, _, _, _, rfl⟩)
  | ld | ldi | ldr | sti | trapPuts | trapPutsp => cases h; left; simp
  | trapGetc => cases h; exact .inl (s.link.resume_run .getc)
  | trapIn => cases h; exact .inl ((s.link.consoleWrites s.inPrompt).resume_run .inn)
  | br n z p off =>
    cases h
    split <;> exact .inl rfl
  | addReg | addImm | andReg | andImm | not | lea | st | str | jmp | jsr | jsrr | trapOut
  | trapNone80 | trapNone40 | trapNone00 | trapNone30 | trapNone28 | trapNone26 => cases h; exact .inl rfl

/-- Settles O50, by the branches of a step: a begun step goes on Running, and the fetched instruction stops the machine
in the ways of `exec_run_cases` only. -/
theorem stoppedIsReachedInThreeWays : Obligations.StoppedIsReachedInThreeWays := by
  intro s t hrun h ht
  have hne : t.run ≠ .running := by rw [ht]; nofun
  rcases step_cases s with ⟨hs, -⟩ | ⟨w, -, -, hstep⟩ | ⟨-, hw, ha, hstep⟩ | ⟨-, hw, ha, hstep⟩
  · exact absurd (hrun.symm.trans hs) nofun
  · rw [hstep] at h
    cases h
    exact absurd ((s.resume_run w).trans hrun) hne
  · rw [hstep] at h
    cases h
    exact ⟨hw, .inl ⟨ha, rfl⟩⟩
  · rcases exec_run_cases (hstep.symm.trans h) with hkept | ⟨hi, hcause⟩ | ⟨hi, hcause⟩
    · have hfetch : s.afterSample.afterFetch.run = s.run := s.afterSample.afterFetch_run
      exact absurd (hkept.trans (hfetch.trans hrun)) hne
    · exact ⟨hw, .inr (.inl ⟨ha, hi, hcause⟩)⟩
    · exact ⟨hw, .inr (.inr ⟨ha, hi, hcause⟩)⟩

/-! ### Placing a word (log 19) -/

theorem State.fetchableAt_ne_kbsr (s : State) : s.fetchableAt ≠ Config.kbsr := by
  rw [State.fetchableAt]
  split
  · decide
  · assumption

/-- The next sample after `releaseStop` reads not asserted. -/
theorem State.withFetchWord_stopAsserted (s : State) (nbits w : Nat) :
    (s.withFetchWord nbits w).stopAsserted = false := by
  show (releaseStop s.stopSamples).headD false = false
  cases s.stopSamples <;> rfl

/-- The next fetch reads the placed word: it is in the cell `pc` names, whose read polls no keyboard. -/
theorem State.withFetchWord_fetchWord {s : State} (hs : s.mem.wf) (nbits w : Nat) :
    (s.withFetchWord nbits w).afterSample.fetchWord = BitVec.ofNat 16 w := by
  show ((s.withFetchWord nbits w).afterSample.memRead s.fetchableAt).1 = _
  rw [State.memRead_fst, State.afterRead_plain _ s.fetchableAt_ne_kbsr]
  show ((s.setPc s.fetchableAt).setCell s.fetchableAt _).cell s.fetchableAt = _
  rw [State.setCell_cell (s := s.setPc s.fetchableAt) hs, if_pos rfl]

/-- What the host's view of the decoder does not refuse, it decodes as `decode` does. -/
theorem decode_of_decodeTableWord {nbits w : Nat} {i : Instr} (h : decodeTableWord nbits w = some i) :
    decode (BitVec.ofNat 16 w) = i := by
  obtain ⟨-, hi⟩ := Option.ite_none_right_eq_some.1 h
  exact Option.some.inj hi

/-- Settles O60: the machine is at the top of a step with no stop request, and fetches the placed word. -/
theorem placedWordRunsNext : Obligations.PlacedWordRunsNext := by
  intro s nbits w i hs hi
  refine ⟨?_, rfl, rfl, fun hpc => if_neg hpc⟩
  rw [step_of_fetch rfl rfl (s.withFetchWord_stopAsserted nbits w), State.withFetchWord_fetchWord hs,
    decode_of_decodeTableWord hi]

end Sys2Proof.Machine

/-! ## ADD, AND, NOT (41_alu)

Each of the five ends with `writeDest`, so what it changes beside the value of DR is said once, in
`State.writeDest_frame`. The words decode by `decode_of_readBits`: a field placed on bits that are not read is lost under
the mask of those that are. -/

namespace Sys2Proof

/-! ### Words with arbitrary ignored bits (30_encoding R67) -/

/-- A field placed outside a mask is lost under it. -/
theorem or_place_and {pos n : Nat} {m : Word} (hpos : pos + n ≤ 16)
    (hm : place pos (BitVec.allOnes n) &&& m = 0#16) (a : Word) (x : BitVec n) :
    (a ||| place pos x) &&& m = a &&& m := by
  have hx : place pos x = place pos x &&& place pos (BitVec.allOnes n) := by
    rw [← place_extractLsb', extract_place pos x hpos]
  rw [BitVec.and_or_distrib_right, hx, BitVec.and_assoc, hm, BitVec.and_zero, BitVec.or_zero]

/-- Bits 4 and 3 of the register forms of ADD and AND are lost under the bits those forms read (30_encoding R64). -/
theorem or_place_or_and_registerForm (a b : Word) (x : BitVec 2) :
    (a ||| place 3 x ||| b) &&& 0xFFE7#16 = (a ||| b) &&& 0xFFE7#16 := by
  rw [BitVec.and_or_distrib_right, or_place_and (by decide) (by decide), ← BitVec.and_or_distrib_right]

end Sys2Proof

namespace Sys2Proof.Machine

/-! ### What writing DR and its flag does (40_step R93, R94) -/

theorem State.writeDest_reg_same (s : State) (dr : Reg) (v : Word) : (s.writeDest dr v).reg dr = v := by
  rw [State.writeDest_reg, if_pos rfl]

theorem State.writeDest_sameOutsideRegs (s : State) (dr : Reg) (v : Word) : SameOutsideRegs s (s.writeDest dr v) :=
  ⟨fun _ => rfl, ⟨rfl, rfl⟩, ⟨rfl, rfl⟩, ⟨rfl, rfl, rfl⟩, ⟨rfl, rfl⟩⟩

/-- Beside DR only `cond` is written, with the flag of DR. -/
theorem State.writeDest_frame (s : State) (dr : Reg) (v : Word) :
    (s.writeDest dr v).cond = condOf ((s.writeDest dr v).reg dr) ∧ (s.writeDest dr v).pc = s.pc ∧
      SameRegsBut [dr] s (s.writeDest dr v) ∧ SameOutsideRegs s (s.writeDest dr v) :=
  ⟨rfl, rfl, s.writeDest_sameRegsBut dr v, s.writeDest_sameOutsideRegs dr v⟩

/-! ### The five instructions -/

/-- Settles O12: bits 4 and 3 are not read, and DR gets the sum of words. -/
theorem addRegisterForm : Obligations.AddRegisterForm := by
  intro dr sr1 sr2 x s
  refine ⟨decode_of_readBits rfl (or_place_or_and_registerForm _ _ x), _, rfl, ?_, s.writeDest_frame dr _⟩
  rw [State.writeDest_reg_same]
  exact BitVec.toNat_add _ _

/-- Settles O13: the word is the encoding, and DR gets the sum of words. -/
theorem addImmediateForm : Obligations.AddImmediateForm := by
  intro dr sr1 imm s
  refine ⟨decodeInvertsEncode (.addImm dr sr1 imm) rfl, _, rfl, ?_, s.writeDest_frame dr _⟩
  rw [State.writeDest_reg_same]
  exact BitVec.toNat_add _ _

/-- Settles O14: bits 4 and 3 are not read, and DR gets the AND of words. -/
theorem andRegisterForm : Obligations.AndRegisterForm := by
  intro dr sr1 sr2 x s
  refine ⟨decode_of_readBits rfl (or_place_or_and_registerForm _ _ x), _, rfl, fun k _ => ?_, s.writeDest_frame dr _⟩
  rw [State.writeDest_reg_same, BitVec.getLsbD_and]

/-- Settles O15: the word is the encoding, and DR gets the AND of words. -/
theorem andImmediateForm : Obligations.AndImmediateForm := by
  intro dr sr1 imm s
  refine ⟨decodeInvertsEncode (.andImm dr sr1 imm) rfl, _, rfl, fun k _ => ?_, s.writeDest_frame dr _⟩
  rw [State.writeDest_reg_same, BitVec.getLsbD_and]

/-- Settles O16: bits 5 to 0 are not read, whether they hold `x` or the ones of the encoding, and DR gets the
complement. -/
theorem notComplements : Obligations.NotComplements := by
  intro dr sr x s
  have hx := or_place_and (pos := 0) (n := 6) (m := 0xFFC0#16) (by decide) (by decide)
    (place 12 0x9#4 ||| place 9 dr.bits ||| place 6 sr.bits)
  refine ⟨decode_of_readBits rfl ((hx x).trans (hx 0x3F#6).symm), _, rfl, ?_, s.writeDest_frame dr _⟩
  rw [State.writeDest_reg_same]
  exact BitVec.toNat_not

end Sys2Proof.Machine

/-! ## BR, JMP, JSR, JSRR (42_control)

None of the four touches what lies outside the registers and `pc`: a jump is `setPc`, and a link is `setReg` (the
frames below). The words decode as those of the ALU do, by the encoding on the bits read. -/

namespace Sys2Proof

/-- A field placed outside a mask is lost under it, also between two other parts of a word. -/
theorem or_place_or_and {pos n : Nat} {m : Word} (hpos : pos + n ≤ 16)
    (hm : place pos (BitVec.allOnes n) &&& m = 0#16) (a b : Word) (x : BitVec n) :
    (a ||| place pos x ||| b) &&& m = (a ||| b) &&& m := by
  rw [BitVec.and_or_distrib_right, or_place_and hpos hm, ← BitVec.and_or_distrib_right]

/-- The bits JMP and JSRR leave unread, a field at bit 9 and bits 5 to 0, are lost under those they read (30_encoding
R64). -/
theorem base_or_ignored_and {n : Nat} {m : Word} (hn : 9 + n ≤ 16) (hhigh : place 9 (BitVec.allOnes n) &&& m = 0#16)
    (hlow : 0x003F#16 &&& m = 0#16) (a b : Word) (x : BitVec n) (y : BitVec 6) :
    (a ||| place 9 x ||| b ||| place 0 y) &&& m = (a ||| b) &&& m := by
  rw [or_place_and (by decide) hlow, or_place_or_and hn hhigh]

end Sys2Proof

namespace Sys2Proof.Machine

/-! ### The test of BR (42_control R110, D3) -/

theorem branchTaken_iff (n z p : Bool) (c : Cond) :
    branchTaken n z p c = true ↔ (n = true ∧ c = .neg) ∨ (z = true ∧ c = .zro) ∨ (p = true ∧ c = .pos) := by
  simp only [branchTaken, Bool.or_eq_true, Bool.and_eq_true, beq_iff_eq, or_assoc]

/-- With the one-hot numbers of the flags the test is `(instr[11:9] AND cond[2:0]) != 0`. -/
theorem branchTaken_iff_bits (n z p : Bool) (c : Cond) : branchTaken n z p c = true ↔
    (place 2 (BitVec.ofBool n) ||| place 1 (BitVec.ofBool z) ||| place 0 (BitVec.ofBool p)) &&& c.bits ≠ 0#16 := by
  revert n z p
  cases c with
  | pos | zro | neg => decide

/-! ### What jumping and linking leave unchanged -/

theorem SameOutsideRegs.refl (s : State) : SameOutsideRegs s s :=
  ⟨fun _ => rfl, ⟨rfl, rfl⟩, ⟨rfl, rfl⟩, ⟨rfl, rfl, rfl⟩, ⟨rfl, rfl⟩⟩

theorem State.setPc_sameOutsideRegs (s : State) (v : Word) : SameOutsideRegs s (s.setPc v) := .refl s

/-- Beside `pc` a linked jump writes R7 only, with the incremented `pc` (10_state R21). -/
theorem State.link_setPc_frame (s : State) (v : Word) :
    (s.link.setPc v).cond = s.cond ∧ SameRegsBut [.r7] s (s.link.setPc v) ∧ SameOutsideRegs s (s.link.setPc v) :=
  ⟨rfl, s.link_sameRegsBut, .refl s⟩

/-! ### The four instructions -/

/-- Settles O17: the word is the encoding, and the cases are whether the branch is taken. -/
theorem branchIsTakenOnItsFlags : Obligations.BranchIsTakenOnItsFlags := by
  intro n z p off s
  refine ⟨decodeInvertsEncode (.br n z p off) rfl, branchTaken_iff n z p s.cond, branchTaken_iff_bits n z p s.cond,
    _, rfl, ?_⟩
  split
  · exact ⟨BitVec.toNat_add _ _, rfl, rfl, s.setPc_sameOutsideRegs _⟩
  · exact ⟨rfl, rfl, rfl, .refl s⟩

/-- Settles O18: bits 11 to 9 and 5 to 0 are not read, and `pc` gets the base. -/
theorem jmpLoadsPcFromTheBase : Obligations.JmpLoadsPcFromTheBase := by
  intro base x y s
  have hword := base_or_ignored_and (m := 0xF1C0#16) (by decide) (by decide) (by decide) (place 12 0xC#4)
    (place 6 base.bits) x y
  exact ⟨decode_of_readBits rfl hword, _, rfl, rfl, rfl, rfl, s.setPc_sameOutsideRegs _⟩

/-- Settles O19: the word is the encoding, and `pc` gets the sum of words. -/
theorem jsrLinksAndJumps : Obligations.JsrLinksAndJumps := by
  intro off s
  exact ⟨decodeInvertsEncode (.jsr off) rfl, _, rfl, s.link_reg .r7, BitVec.toNat_add _ _, s.link_setPc_frame _⟩

/-- Settles O20: bits 10, 9 and 5 to 0 are not read, and the base is read after the link (`State.link_reg`). -/
theorem jsrrLinksThenReadsTheBase : Obligations.JsrrLinksThenReadsTheBase := by
  intro base x y s
  have hword := base_or_ignored_and (m := 0xF9C0#16) (by decide) (by decide) (by decide)
    (place 12 0x4#4 ||| place 11 0#1) (place 6 base.bits) x y
  exact ⟨decode_of_readBits rfl hword, _, rfl, s.link_reg .r7, s.link_reg base, s.link_setPc_frame _⟩

end Sys2Proof.Machine

/-! ## LD, LDI, LDR, LEA, ST, STI, STR (43_load_store)

A load is a read that ends in `writeDest` (`State.loadDest`), a store is a `memWrite`. Reads and writes alike change
nothing but memory and the input stream (`SameButMemoryAndInput`), and that relation is transitive: so the frame of the
instructions with a pointer is put together from those of their two accesses. -/

namespace Sys2Proof.Machine

/-! ### What memory accesses leave unchanged (20_memory R41, R42, R43) -/

/-- `t` with the memory and the input stream of `s`. -/
def State.withMemoryAndInputOf (t s : State) : State :=
  { t with mem := s.mem, consoleIn := s.consoleIn, arrivals := s.arrivals }

/-- Nothing but memory and the input stream is changed. -/
def SameButMemoryAndInput (s t : State) : Prop := t.withMemoryAndInputOf s = s

theorem SameButMemoryAndInput.refl (s : State) : SameButMemoryAndInput s s := rfl

theorem SameButMemoryAndInput.trans {s t u : State} (hst : SameButMemoryAndInput s t)
    (htu : SameButMemoryAndInput t u) : SameButMemoryAndInput s u :=
  calc u.withMemoryAndInputOf s
      _ = (u.withMemoryAndInputOf t).withMemoryAndInputOf s := rfl
      _ = t.withMemoryAndInputOf s := congrArg (·.withMemoryAndInputOf s) (show u.withMemoryAndInputOf t = t from htu)
      _ = s := hst

/-- The part of a state that `SameButMemoryAndInput` keeps, field by field. -/
theorem SameButMemoryAndInput.frame {s t : State} (h : SameButMemoryAndInput s t) :
    t.regs = s.regs ∧ t.pc = s.pc ∧ t.cond = s.cond ∧ SameOutput s t ∧ SameRun s t ∧ SameLaunch s t :=
  have hfield {α : Type} (field : State → α) : field (t.withMemoryAndInputOf s) = field s := congrArg field h
  ⟨hfield State.regs, hfield State.pc, hfield State.cond, ⟨hfield State.consoleOut, hfield State.flushed⟩,
    ⟨hfield State.run, hfield State.cause, hfield State.waiting⟩, ⟨hfield State.stopSamples, hfield State.inPrompt⟩⟩

theorem State.memRead_sameButMemoryAndInput (s : State) (a : Word) : SameButMemoryAndInput s (s.memRead a).2 :=
  s.afterRead_frame a

theorem State.memWrite_sameButMemoryAndInput (s : State) (a v : Word) : SameButMemoryAndInput s (s.memWrite a v) := rfl

/-! ### Loading a register (43_load_store R120, R121, R122) -/

/-- A read of cell `a` whose value goes to DR: what LD, LDI and LDR end with. -/
def State.loadDest (s : State) (dr : Reg) (a : Word) : State := (s.memRead a).2.writeDest dr (s.memRead a).1

/-- DR holds what the read yields; memory and input are as the read left them. -/
theorem State.loadDest_readsCell {s : State} (hs : s.mem.wf) (dr : Reg) (a : Word) :
    ReadsCell s a ((s.loadDest dr a).reg dr) (s.loadDest dr a) := by
  obtain ⟨hplain, hno_key, hkey⟩ := State.memRead_readsCell hs a
  rw [State.loadDest, State.writeDest_reg_same]
  exact ⟨hplain, hno_key, hkey⟩

/-- What a load changes of a state `s` from which accesses have led to `u`: DR and `cond`, beside memory and the
input. -/
theorem SameButMemoryAndInput.loadDest_frame {s u : State} (h : SameButMemoryAndInput s u) (dr : Reg) (a : Word) :
    (u.loadDest dr a).cond = condOf ((u.loadDest dr a).reg dr) ∧ (u.loadDest dr a).pc = s.pc ∧
      SameRegsBut [dr] s (u.loadDest dr a) ∧ SameOutput s (u.loadDest dr a) ∧ SameRun s (u.loadDest dr a) ∧
      SameLaunch s (u.loadDest dr a) := by
  obtain ⟨hregs, hpc, -, hout, hrun, hlaunch⟩ := (h.trans (u.memRead_sameButMemoryAndInput a)).frame
  exact ⟨rfl, hpc, (SameRegsBut.of_regs hregs []).trans (State.writeDest_sameRegsBut _ dr _), hout, hrun, hlaunch⟩

/-! ### The loads -/

/-- Settles O21: the word is the encoding, and DR is loaded from the address. -/
theorem ldLoadsTheCell : Obligations.LdLoadsTheCell := by
  intro dr off s hs
  exact ⟨decodeInvertsEncode (.ld dr off) rfl, s.loadDest dr (s.pc + sext off), rfl, State.loadDest_readsCell hs dr _,
    (SameButMemoryAndInput.refl s).loadDest_frame dr _⟩

/-- Settles O22: DR is loaded through the pointer, from the state the read of the pointer leaves. -/
theorem ldiLoadsThroughThePointer : Obligations.LdiLoadsThroughThePointer := by
  intro dr off s hs
  have hread := s.memRead_sameButMemoryAndInput (s.pc + sext off)
  have hwf : (s.memRead (s.pc + sext off)).2.mem.wf := State.afterRead_wf hs _
  exact ⟨decodeInvertsEncode (.ldi dr off) rfl, _, _, _, State.memRead_readsCell hs _, rfl,
    State.loadDest_readsCell hwf dr _, hread.loadDest_frame dr _⟩

/-- Settles O23: as LD, from the base that the state before holds. -/
theorem ldrLoadsTheCell : Obligations.LdrLoadsTheCell := by
  intro dr base off s hs
  exact ⟨decodeInvertsEncode (.ldr dr base off) rfl, s.loadDest dr (s.reg base + sext off), rfl,
    State.loadDest_readsCell hs dr _, (SameButMemoryAndInput.refl s).loadDest_frame dr _⟩

/-- Settles O24: DR gets the sum of words, and no access is made. -/
theorem leaYieldsTheAddress : Obligations.LeaYieldsTheAddress := by
  intro dr off s
  refine ⟨decodeInvertsEncode (.lea dr off) rfl, _, rfl, ?_, s.writeDest_frame dr _⟩
  rw [State.writeDest_reg_same]
  exact BitVec.toNat_add _ _

/-! ### The stores -/

/-- What a store leaves unchanged beside the other cells; it polls nothing (20_memory R41). -/
theorem State.memWrite_frame (s : State) (a v : Word) :
    (s.memWrite a v).regs = s.regs ∧ (s.memWrite a v).pc = s.pc ∧ (s.memWrite a v).cond = s.cond ∧
      SameInput s (s.memWrite a v) ∧ SameOutput s (s.memWrite a v) ∧ SameRun s (s.memWrite a v) ∧
      SameLaunch s (s.memWrite a v) := by
  obtain ⟨hregs, hpc, hcond, hrest⟩ := (s.memWrite_sameButMemoryAndInput a v).frame
  exact ⟨hregs, hpc, hcond, ⟨rfl, rfl⟩, hrest⟩

/-- Settles O25: the word is the encoding, and the write is that of one cell. -/
theorem stStoresTheRegister : Obligations.StStoresTheRegister := by
  intro sr off s hs
  exact ⟨decodeInvertsEncode (.st sr off) rfl, _, rfl, State.memWrite_cell hs _ _, s.memWrite_frame _ _⟩

/-- Settles O26: the write is made in the state the read of the pointer leaves. -/
theorem stiStoresThroughThePointer : Obligations.StiStoresThroughThePointer := by
  intro sr off s hs
  have hread := s.memRead_sameButMemoryAndInput (s.pc + sext off)
  have hwf : (s.memRead (s.pc + sext off)).2.mem.wf := State.afterRead_wf hs _
  exact ⟨decodeInvertsEncode (.sti sr off) rfl, _, _, _, State.memRead_readsCell hs _, rfl,
    State.memWrite_cell hwf _ _, ⟨rfl, rfl⟩, (hread.trans (State.memWrite_sameButMemoryAndInput _ _ _)).frame⟩

/-- Settles O27: as ST, to the address from the base. -/
theorem strStoresTheRegister : Obligations.StrStoresTheRegister := by
  intro sr base off s hs
  exact ⟨decodeInvertsEncode (.str sr base off) rfl, _, rfl, State.memWrite_cell hs _ _, s.memWrite_frame _ _⟩

end Sys2Proof.Machine

/-! ## TRAP (44_trap)

A TRAP is the link followed by its routine, and every routine but HALT keeps R7 and the run state that the link left
(`exec_trap_sameLinkAndRun`); the rest of the common frame is what the whole-machine rules say of any instruction. GETC
and IN are the two outcomes of `ConsoleRead`; OUT, like the string routines on a string that ends, is the link and some
bytes written (`State.link_consoleWrites_frame`). -/

namespace Sys2Proof

/-! ### The words of TRAP (44_trap R130, 30_encoding R67) -/

/-- A TRAP word is the instruction of its vector, whatever bits 11 to 8 hold. -/
theorem decode_trapWord (x : BitVec 4) (v : Byte) :
    decode (place 12 0xF#4 ||| place 8 x ||| place 0 v) = decodeTrap v :=
  decode_of_trapBits (or_place_or_and (by decide) (by decide) _ _ x)

/-- Without ignored bits it is the encoder's word. -/
theorem decode_encodeTrap (v : Byte) : decode (encodeTrap v) = decodeTrap v := decode_of_trapBits rfl

/-! Facts about each of the 256 vectors, by evaluation. -/

theorem decodeTrap_routines : ∀ v : Byte, decodeTrap v =
    if v = 0x20#8 then .trapGetc else if v = 0x21#8 then .trapOut else if v = 0x22#8 then .trapPuts
    else if v = 0x23#8 then .trapIn else if v = 0x24#8 then .trapPutsp else if v = 0x25#8 then .trapHalt
    else decodeTrap v := by decide

theorem decodeTrap_mem_noRoutine : ∀ v : Byte, v.toNat < 0x20 ∨ 0x25 < v.toNat → decodeTrap v ∈
    [.trapNone80 v, .trapNone40 v, .trapNone00 v, .trapNone30 v, .trapNone28 v, .trapNone26 v] := by decide

end Sys2Proof

namespace Sys2Proof.Machine

/-! ### Bytes and words (00_scope R8, R10) -/

theorem toNat_zextByte (b : Byte) : (zextByte b).toNat = b.toNat := by
  rw [zextByte, BitVec.toNat_setWidth_of_le (by decide)]

theorem toNat_lowByte (v : Word) : (lowByte v).toNat = v.toNat % 256 := by
  rw [lowByte, BitVec.extractLsb'_toNat]
  rfl

theorem lowByte_append (hi lo : Byte) : lowByte (hi ++ lo : Word) = lo :=
  BitVec.extractLsb'_append_eq_right

theorem highByte_append (hi lo : Byte) : highByte (hi ++ lo : Word) = hi :=
  BitVec.extractLsb'_append_eq_left

/-! ### What every TRAP does (44_trap R130) -/

/-- R7, run state, cause, stop samples and prompt are unchanged: what every routine but HALT leaves of the state after
the link. -/
def SameLinkAndRun (s t : State) : Prop := t.reg .r7 = s.reg .r7 ∧ t.run = s.run ∧ t.cause = s.cause ∧ SameLaunch s t

theorem State.resume_sameLinkAndRun (s : State) (w : PendingStep) : SameLinkAndRun s (s.resume w) := by
  obtain ⟨-, -, hrun, hcause, hstops, hprompt, -⟩ := s.resume_same w
  exact ⟨s.resume_sameRegsBut w .r7 (by decide), hrun, hcause, hstops, hprompt⟩

theorem State.puts_sameLinkAndRun (s : State) (a : Word) : SameLinkAndRun s (s.puts a) :=
  ⟨s.puts_reg a .r7, s.puts_run a, s.puts_cause a, s.puts_stopSamples a, s.puts_inPrompt a⟩

theorem State.putsp_sameLinkAndRun (s : State) (a : Word) : SameLinkAndRun s (s.putsp a) :=
  ⟨s.putsp_reg a .r7, s.putsp_run a, s.putsp_cause a, s.putsp_stopSamples a, s.putsp_inPrompt a⟩

/-- A TRAP is the link and then a routine that keeps it; HALT stops. -/
theorem exec_trap_sameLinkAndRun {i : Instr} {s t : State} (hi : isTrap i = true) (h : exec i s = .next t) :
    SameLinkAndRun s.link t ∨ i = .trapHalt ∧ t = s.link.consoleFlush.stop .halt := by
  cases i with
  | br | addReg | addImm | ld | st | jsr | jsrr | andReg | andImm | ldr | str | rti | not | ldi | sti | jmp | res
  | lea => cases hi
  | trapHalt => cases h; exact .inr ⟨rfl, rfl⟩
  | trapGetc => cases h; exact .inl (s.link.resume_sameLinkAndRun .getc)
  | trapIn => cases h; exact .inl ((s.link.consoleWrites s.inPrompt).resume_sameLinkAndRun .inn)
  | trapPuts => cases h; exact .inl (s.link.puts_sameLinkAndRun _)
  | trapPutsp => cases h; exact .inl (s.link.putsp_sameLinkAndRun _)
  | trapOut | trapNone80 | trapNone40 | trapNone00 | trapNone30 | trapNone28 | trapNone26 =>
    cases h
    exact .inl ⟨rfl, rfl, rfl, rfl, rfl⟩

/-- The registers a TRAP writes (44_trap R130). -/
theorem mem_registersWritten_of_isTrap {i : Instr} (hi : isTrap i = true) {r : Reg} (hr : r ∈ registersWritten i) :
    r = .r7 ∨ r = .r0 ∧ (i = .trapGetc ∨ i = .trapIn) := by
  cases i with
  | br | addReg | addImm | ld | st | jsr | jsrr | andReg | andImm | ldr | str | rti | not | ldi | sti | jmp | res
  | lea => cases hi
  | trapGetc | trapIn => simpa [registersWritten] using hr
  | trapOut | trapPuts | trapPutsp | trapHalt | trapNone80 | trapNone40 | trapNone00 | trapNone30 | trapNone28
  | trapNone26 => exact .inl (List.mem_singleton.1 hr)

/-- No TRAP moves `pc`, defines flags or stores (44_trap R130, 20_memory R45). -/
theorem isTrap_not_moves_defines_stores {i : Instr} (hi : isTrap i = true) :
    movesPc i = false ∧ definesFlags i = false ∧ storesMemory i = false := by
  cases i with
  | br | addReg | addImm | ld | st | jsr | jsrr | andReg | andImm | ldr | str | rti | not | ldi | sti | jmp | res
  | lea => cases hi
  | trapGetc | trapIn | trapOut | trapPuts | trapPutsp | trapHalt | trapNone80 | trapNone40 | trapNone00 | trapNone30
  | trapNone28 | trapNone26 => exact ⟨rfl, rfl, rfl⟩

/-- Settles O28: the decoder on TRAP words; then what the whole-machine rules say of instructions that are TRAPs, and
the link. -/
theorem everyTrapLinksAndStays : Obligations.EveryTrapLinksAndStays := by
  refine ⟨fun x v => ⟨?_, fun hv => ?_⟩, fun i s t hi hs h => ?_⟩
  · rw [decode_trapWord, decodeTrap_routines v, ← decode_encodeTrap]
    rfl
  · exact (decode_encodeTrap v).symm ▸ decodeTrap_mem_noRoutine v hv
  · obtain ⟨hpc, hflags, hstore⟩ := isTrap_not_moves_defines_stores hi
    have hregs : ∀ r, r ≠ .r7 → (r ≠ .r0 ∨ (i ≠ .trapGetc ∧ i ≠ .trapIn)) → t.reg r = s.reg r := by
      intro r h7 h0
      refine registerWritesFollowTheTable i s t h r fun hr => ?_
      rcases mem_registersWritten_of_isTrap hi hr with rfl | ⟨rfl, hgetc | hin⟩
      · exact h7 rfl
      · exact h0.elim (· rfl) (·.1 hgetc)
      · exact h0.elim (· rfl) (·.2 hin)
    have hmem := onlyStoresWriteMemory i s t hs h hstore
    rcases exec_trap_sameLinkAndRun hi h with ⟨h7, hrun, hcause, hlaunch⟩ | ⟨rfl, rfl⟩
    · exact ⟨h7.trans (s.link_reg .r7), exec_pc hpc h, exec_cond hflags h, hregs, hmem, fun _ => ⟨hrun, hcause⟩,
        hlaunch⟩
    · exact ⟨s.link_reg .r7, rfl, rfl, hregs, hmem, fun hne => absurd rfl hne, rfl, rfl⟩

/-! ### GETC, OUT, IN, HALT, and vectors without a routine (44_trap R131, R132, R134, R136, R137) -/

theorem SameRegsBut.mono {s t : State} {l l' : List Reg} (h : SameRegsBut l s t) (hl : l ⊆ l') :
    SameRegsBut l' s t :=
  fun r hr => h r fun hr' => hr (hl hr')

/-- Settles O29: the two outcomes of `ConsoleRead` after the link. -/
theorem getcReadsOneCharacter : Obligations.GetcReadsOneCharacter := by
  intro x s
  refine ⟨decode_trapWord x 0x20#8, fun c cs hi => ?_, fun hi => ?_⟩
  · have hexec : exec .trapGetc s = .next _ := congrArg Host.Outcome.next (State.getcRead_ready (s := s.link) hi)
    exact ⟨_, hexec, toNat_zextByte c, rfl, (registerWritesFollowTheTable _ _ _ hexec).mono (by decide), rfl, rfl, rfl,
      rfl, rfl, ⟨rfl, rfl⟩, rfl, rfl, rfl, rfl, rfl⟩
  · have hexec : exec .trapGetc s = .next _ := congrArg Host.Outcome.next (State.getcRead_empty (s := s.link) hi)
    exact ⟨_, hexec, rfl, rfl, rfl, s.link_reg .r7, s.link_sameRegsBut, rfl, rfl, rfl, rfl, rfl, ⟨rfl, rfl⟩, rfl, rfl⟩

/-- Settles O34: as GETC, after the prompt, and with the echo. -/
theorem inPromptsReadsAndEchoes : Obligations.InPromptsReadsAndEchoes := by
  intro x s
  refine ⟨decode_trapWord x 0x23#8, fun c cs hi => ?_, fun hi => ?_⟩
  · have hexec : exec .trapIn s = .next _ :=
      congrArg Host.Outcome.next (State.inRead_ready (s := s.link.consoleWrites s.inPrompt) hi)
    exact ⟨_, hexec, rfl, toNat_zextByte c, rfl, (registerWritesFollowTheTable _ _ _ hexec).mono (by decide), rfl, rfl,
      rfl, rfl, rfl, rfl, rfl, rfl, rfl, rfl, rfl⟩
  · have hexec : exec .trapIn s = .next _ :=
      congrArg Host.Outcome.next (State.inRead_empty (s := s.link.consoleWrites s.inPrompt) hi)
    exact ⟨_, hexec, rfl, rfl, rfl, rfl, s.link_reg .r7, s.link_sameRegsBut, rfl, rfl, rfl, rfl, rfl, rfl, rfl, rfl⟩

/-- Beside the output, a TRAP that only writes bytes writes R7. -/
theorem State.link_consoleWrites_frame (s : State) (bs : List Byte) :
    (s.link.consoleWrites bs).reg .r7 = s.pc ∧ SameRegsBut [.r7] s (s.link.consoleWrites bs) ∧
      (s.link.consoleWrites bs).pc = s.pc ∧ (s.link.consoleWrites bs).cond = s.cond ∧
      (s.link.consoleWrites bs).mem = s.mem ∧ SameInput s (s.link.consoleWrites bs) ∧
      (s.link.consoleWrites bs).flushed = s.flushed ∧ SameRun s (s.link.consoleWrites bs) ∧
      SameLaunch s (s.link.consoleWrites bs) :=
  ⟨s.link_reg .r7, s.link_sameRegsBut, rfl, rfl, rfl, ⟨rfl, rfl⟩, rfl, ⟨rfl, rfl, rfl⟩, ⟨rfl, rfl⟩⟩

/-- Settles O30: the one byte written is the low byte of R0, which the link does not touch. -/
theorem outWritesTheLowByteOfR0 : Obligations.OutWritesTheLowByteOfR0 := by
  intro x s
  exact ⟨decode_trapWord x 0x21#8, s.link.consoleWrites [lowByte (s.reg .r0)], _, rfl, rfl, toNat_lowByte _,
    s.link_consoleWrites_frame _⟩

/-- Settles O37: flush, then stop. -/
theorem haltFlushesAndStops : Obligations.HaltFlushesAndStops := by
  intro x s
  exact ⟨decode_trapWord x 0x25#8, _, rfl, rfl, rfl, rfl, rfl, s.link_reg .r7, s.link_sameRegsBut, rfl, rfl, rfl,
    ⟨rfl, rfl⟩, rfl, rfl, rfl⟩

/-- The six rows of vectors without a routine share one meaning, the link. -/
theorem exec_noRoutine {v : Byte} {i : Instr} (s : State)
    (hi : i ∈ [.trapNone80 v, .trapNone40 v, .trapNone00 v, .trapNone30 v, .trapNone28 v, .trapNone26 v]) :
    exec i s = .next s.link := by
  simp only [List.mem_cons, List.not_mem_nil, or_false] at hi
  rcases hi with rfl | rfl | rfl | rfl | rfl | rfl <;> rfl

/-- Settles O38, by `exec_noRoutine`. -/
theorem trapWithoutRoutineOnlyLinks : Obligations.TrapWithoutRoutineOnlyLinks :=
  fun _ s _ hi => ⟨s.link, exec_noRoutine s hi, s.link_reg .r7, rfl, rfl, s.link_sameRegsBut, .refl s⟩

/-! ### The output stream (44_trap R139) -/

/-- A GETC that is tried again writes nothing. -/
theorem State.getcRead_consoleOut (s : State) : s.getcRead.consoleOut = s.consoleOut := by
  rcases s.incoming_cases with hi | ⟨c, cs, hi⟩
  · rw [State.getcRead_empty hi]
    rfl
  · rw [State.getcRead_ready hi]
    rfl

/-- An IN that is tried again echoes the character it reads, if there is one. -/
theorem State.inRead_consoleOut (s : State) : s.inRead.consoleOut = s.consoleOut ++ s.incoming.take 1 := by
  rcases s.incoming_cases with hi | ⟨c, cs, hi⟩
  · rw [State.inRead_empty hi, hi]
    exact (List.append_nil _).symm
  · rw [State.inRead_ready hi, hi]
    rfl

/-- An instruction that calls no `ConsoleWrite` leaves the output. -/
theorem exec_consoleOut {i : Instr} {s t : State} (hi : writesConsole i = false) (h : exec i s = .next t) :
    t.consoleOut = s.consoleOut := by
  cases i with
  | trapOut | trapPuts | trapIn | trapPutsp => cases hi
  | ld | ldr | ldi | sti => cases h; simp
  | trapGetc => cases h; exact s.link.getcRead_consoleOut
  | br n z p off =>
    cases h
    split <;> rfl
  | addReg | addImm | andReg | andImm | not | lea | st | str | jmp | jsr | jsrr | rti | res | trapHalt
  | trapNone80 | trapNone40 | trapNone00 | trapNone30 | trapNone28 | trapNone26 => cases h; rfl

/-- An instruction that calls `ConsoleWrite` adds to the output. -/
theorem exec_prefix_of_writesConsole {i : Instr} {s t : State} (hi : writesConsole i = true) (h : exec i s = .next t) :
    s.consoleOut <+: t.consoleOut := by
  cases i with
  | trapOut => cases h; exact List.prefix_append _ _
  | trapPuts => cases h; exact State.puts_prefix (s := s.link) _
  | trapPutsp => cases h; exact State.putsp_prefix (s := s.link) _
  | trapIn =>
    cases h
    exact (List.prefix_append _ _).trans ((s.link.consoleWrites s.inPrompt).resume_prefix .inn)
  | br | addReg | addImm | ld | st | jsr | jsrr | andReg | andImm | ldr | str | rti | not | ldi | sti | jmp | res
  | lea | trapGetc | trapHalt | trapNone80 | trapNone40 | trapNone00 | trapNone30 | trapNone28 | trapNone26 => cases hi

/-- Settles O55: the instructions by whether they call `ConsoleWrite`, and the three ways a begun step goes on. -/
theorem outputOnlyGrows : Obligations.OutputOnlyGrows := by
  refine ⟨fun i s t h => ⟨?_, fun hi => exec_consoleOut hi h⟩, fun s => ?_⟩
  · cases hi : writesConsole i with
    | true => exact exec_prefix_of_writesConsole hi h
    | false => exact (exec_consoleOut hi h).symm ▸ List.prefix_rfl
  · exact ⟨s.getcRead_consoleOut, s.inRead_consoleOut, fun a => s.resume_prefix (.puts a)⟩

end Sys2Proof.Machine

/-! ## The string routines of TRAP (44_trap R133, R135)

The loops are met one pass at a time (`putsLoop_exit`, `putsLoop_goOn`, `State.putsp_eq`). A step of PUTS is one stretch
of the rule's unbounded loop: where the loop exits, stretch after stretch leads there (`PutsExits.leadsTo`), by
induction on the loop; where it never exits, each stretch goes once around memory (`putsLoop_of_not_exits`). -/

namespace Sys2Proof.Machine

/-! ### Strings as their cells are read and written -/

theorem State.consoleWrites_nil (s : State) : s.consoleWrites [] = s := by
  simp only [State.consoleWrites, List.append_nil]

theorem State.consoleWrite_consoleWrites (s : State) (b : Byte) (bs : List Byte) :
    (s.consoleWrite b).consoleWrites bs = s.consoleWrites (b :: bs) := by
  simp only [State.consoleWrites, State.consoleWrite, List.append_assoc, List.singleton_append]

/-- A read outside KBSR of a state with the memory of `s`. -/
theorem SameMemory.memRead {s u : State} (hu : SameMemory s u) {a : Word} (ha : a ≠ Config.kbsr) :
    u.memRead a = (s.cell a, u) := by
  rw [State.memRead, State.afterRead_plain u ha, hu]

/-! ### PUTS on a string that ends (44_trap R133) -/

theorem putsLoop_exit {s : State} {a : Word} (h : (s.memRead a).1 = 0#16) (n : Nat) :
    putsLoop (n + 1) a s = (s.memRead a).2 :=
  if_pos h

theorem putsLoop_goOn {s : State} {a : Word} (h : (s.memRead a).1 ≠ 0#16) (n : Nat) :
    putsLoop (n + 1) a s =
      putsLoop n (a + 1#16) ((s.memRead a).2.consoleWrite (lowByte (s.memRead a).1)) :=
  if_neg h

/-- On a string that ends before KBSR the loop writes the low bytes, with any bound that reaches KBSR. -/
theorem putsLoop_of_holdsString {s : State} {str : List Word} {a : Word} (hstr : HoldsString s a str) {n : Nat}
    (hn : toKbsr a < n + 1) {u : State} (hu : SameMemory s u) :
    putsLoop (n + 1) a u = u.consoleWrites (str.map lowByte) := by
  induction str generalizing a n u with
  | nil =>
    obtain ⟨ha, hcell⟩ := hstr
    rw [putsLoop_exit (by rw [hu.memRead ha, hcell]), hu.memRead ha]
    exact u.consoleWrites_nil.symm
  | cons c cs ih =>
    obtain ⟨ha, hcell, hc, hrest⟩ := hstr
    have hnext : toKbsr (a + 1#16) + 1 = toKbsr a := toKbsr_succ ha
    obtain ⟨n, rfl⟩ := Nat.exists_eq_add_one_of_ne_zero (show n ≠ 0 by omega)
    rw [putsLoop_goOn (by rwa [hu.memRead ha, hcell]), hu.memRead ha, hcell,
      ih hrest (by omega) (u := u.consoleWrite (lowByte c)) hu, State.consoleWrite_consoleWrites]
    rfl

/-- Settles O33: the loop runs on the memory of `s`, which the link leaves. -/
theorem putsWritesTheString : Obligations.PutsWritesTheString := by
  intro x s str hstr
  have hloop : s.link.puts (s.reg .r0) = s.link.consoleWrites (str.map lowByte) :=
    putsLoop_of_holdsString hstr (toKbsr_lt _) fun _ => rfl
  exact ⟨decode_trapWord x 0x22#8, _, congrArg Host.Outcome.next hloop, rfl, s.link_consoleWrites_frame _⟩

/-! ### PUTSP (44_trap R135) -/

theorem putspLoop_exitLow {s : State} {a : Word} (hlow : lowByte (s.memRead a).1 = 0#8) (n : Nat) :
    putspLoop (n + 1) a s = (s.memRead a).2 :=
  if_pos hlow

theorem putspLoop_exitHigh {s : State} {a : Word} (hlow : lowByte (s.memRead a).1 ≠ 0#8)
    (hhigh : highByte (s.memRead a).1 = 0#8) (n : Nat) :
    putspLoop (n + 1) a s = (s.memRead a).2.consoleWrite (lowByte (s.memRead a).1) :=
  (if_neg hlow).trans (if_pos hhigh)

theorem putspLoop_goOn {s : State} {a : Word} (hlow : lowByte (s.memRead a).1 ≠ 0#8)
    (hhigh : highByte (s.memRead a).1 ≠ 0#8) (n : Nat) :
    putspLoop (n + 1) a s = putspLoop n (a + 1#16)
      (((s.memRead a).2.consoleWrite (lowByte (s.memRead a).1)).consoleWrite (highByte (s.memRead a).1)) :=
  (if_neg hlow).trans (if_neg hhigh)

/-- KBSR ends every string of PUTSP: the low byte of a poll's result is zero (20_memory R43). -/
theorem ne_kbsr_of_lowByte_memRead {s : State} (hs : s.mem.wf) {a : Word} (h : lowByte (s.memRead a).1 ≠ 0#8) :
    a ≠ Config.kbsr := by
  rintro rfl
  rw [State.memRead_fst, State.afterRead_kbsr] at h
  exact h (lowByte_kbdPoll hs)

/-- Settles O35: a pass that goes on has read a cell before KBSR, so the bound that reaches KBSR from there suffices for
the rest. -/
theorem putspIsTheLoopOfItsRule : Obligations.PutspIsTheLoopOfItsRule := by
  refine ⟨fun s => rfl, fun s a hs => ?_⟩
  rw [State.putsp_eq hs (Nat.lt_succ_self _)]
  split
  · next hlow => exact putspLoop_exitLow hlow _
  · next hlow =>
    split
    · next hhigh => exact putspLoop_exitHigh hlow hhigh _
    · next hhigh =>
      have hnext : toKbsr (a + 1#16) + 1 = toKbsr a := toKbsr_succ (ne_kbsr_of_lowByte_memRead hs hlow)
      have hwf (b c : Byte) : (((s.memRead a).2.consoleWrite b).consoleWrite c).mem.wf := State.afterRead_wf hs a
      rw [putspLoop_goOn hlow hhigh, State.putsp_eq (hwf _ _) (show toKbsr (a + 1#16) < toKbsr a by omega)]

/-- On a packed string that ends before KBSR the loop writes its bytes, with any bound that reaches KBSR. -/
theorem putspLoop_of_holdsPacked {s : State} {str : List Byte} {a : Word} (hstr : HoldsPacked s a str) {n : Nat}
    (hn : toKbsr a < n + 1) {u : State} (hu : SameMemory s u) : putspLoop (n + 1) a u = u.consoleWrites str := by
  induction a, str using HoldsPacked.induct generalizing n u with
  | case1 a =>
    obtain ⟨ha, hlow⟩ := hstr
    rw [putspLoop_exitLow (by rwa [hu.memRead ha]), hu.memRead ha]
    exact u.consoleWrites_nil.symm
  | case2 a b =>
    obtain ⟨ha, hb, hcell⟩ := hstr
    rw [putspLoop_exitHigh (by rwa [hu.memRead ha, hcell, lowByte_append])
      (by rw [hu.memRead ha, hcell, highByte_append]), hu.memRead ha, hcell, lowByte_append]
    rfl
  | case3 a b c bs ih =>
    obtain ⟨ha, hb, hc, hcell, hrest⟩ := hstr
    have hnext : toKbsr (a + 1#16) + 1 = toKbsr a := toKbsr_succ ha
    obtain ⟨n, rfl⟩ := Nat.exists_eq_add_one_of_ne_zero (show n ≠ 0 by omega)
    rw [putspLoop_goOn (by rwa [hu.memRead ha, hcell, lowByte_append])
      (by rwa [hu.memRead ha, hcell, highByte_append]), hu.memRead ha, hcell, lowByte_append, highByte_append,
      ih hrest (by omega) (u := (u.consoleWrite b).consoleWrite c) hu, State.consoleWrite_consoleWrites,
      State.consoleWrite_consoleWrites]

/-- Settles O36: the loop runs on the memory of `s`, which the link leaves. -/
theorem putspWritesThePackedString : Obligations.PutspWritesThePackedString := by
  intro x s str hstr
  have hloop : s.link.putsp (s.reg .r0) = s.link.consoleWrites str :=
    putspLoop_of_holdsPacked hstr (toKbsr_lt _) fun _ => rfl
  exact ⟨decode_trapWord x 0x24#8, _, congrArg Host.Outcome.next hloop, rfl, s.link_consoleWrites_frame _⟩

/-! ### The steps of a PUTS whose string does not end in one time around memory (U14; log 21) -/

/-- Running, in a PUTS that goes on at cell `a`, no stop sample taken since these were the samples to come. -/
def State.InPuts (s : State) (a : Word) (samples : List Bool) : Prop :=
  s.run = .running ∧ s.waiting = some (.puts a) ∧ s.stopSamples = samples

/-- Running, with no step begun, and these stop samples to come: what every pass of the loop keeps. -/
def State.NotBegun (s : State) (samples : List Bool) : Prop :=
  s.run = .running ∧ s.waiting = none ∧ s.stopSamples = samples

theorem State.NotBegun.inPuts {s : State} {samples : List Bool} (hs : s.NotBegun samples) (a : Word) :
    (s.setWaiting (some (.puts a))).InPuts a samples := by
  obtain ⟨hrun, -, hsamples⟩ := hs
  exact ⟨hrun, rfl, hsamples⟩

/-- A PUTS that goes on at `a` reads on from there in its next step. -/
theorem State.NotBegun.step_goOn {s : State} {samples : List Bool} (hs : s.NotBegun samples) (a : Word) :
    step (s.setWaiting (some (.puts a))) = .next (s.puts a) := by
  obtain ⟨hrun, hw, -⟩ := hs
  have hback : (s.setWaiting (some (.puts a))).setWaiting none = s := by rw [← hw]; rfl
  rw [step_of_waiting (s := s.setWaiting (some (.puts a))) hrun rfl, State.resume, hback]

theorem State.NotBegun.afterRead {s : State} {samples : List Bool} (hs : s.NotBegun samples) (a : Word) :
    (s.afterRead a).NotBegun samples := by
  simpa [State.NotBegun] using hs

theorem State.link_notBegun (s : State) (hrun : s.run = .running) (hw : s.waiting = none) :
    s.link.NotBegun s.stopSamples :=
  ⟨hrun, hw, rfl⟩

/-- Where the loop exits no step is begun, and no sample was taken. -/
theorem PutsExits.notBegun {s t : State} {a : Word} (h : PutsExits s a t) {samples : List Bool}
    (hs : s.NotBegun samples) : t.NotBegun samples := by
  induction h with
  | zero _ => exact hs.afterRead _
  | pass _ _ ih => exact ih (hs.afterRead _)

/-- A number of steps leads from `u` to `t`, all of them in a PUTS that goes on. -/
def LeadsTo (samples : List Bool) (u t : State) : Prop :=
  ∃ n, Host.Core.run core n u = .next t ∧
    ∀ m, m < n → ∃ v a, Host.Core.run core m u = .next v ∧ v.InPuts a samples

theorem LeadsTo.refl (samples : List Bool) (t : State) : LeadsTo samples t t :=
  ⟨0, rfl, fun _ hm => absurd hm (Nat.not_lt_zero _)⟩

theorem LeadsTo.of_step {samples : List Bool} {u v t : State} {a : Word} (hu : u.InPuts a samples)
    (hstep : step u = .next v) (h : LeadsTo samples v t) : LeadsTo samples u t := by
  obtain ⟨n, hn, hbefore⟩ := h
  have hrun (m : Nat) : Host.Core.run core (m + 1) u = Host.Core.run core m v := run_succ_of_next core m u v hstep
  refine ⟨n + 1, (hrun n).trans hn, fun m hm => ?_⟩
  cases m with
  | zero => exact ⟨u, a, rfl, hu⟩
  | succ m =>
    rw [hrun]
    exact hbefore m (Nat.lt_of_succ_lt_succ hm)

/-- Only stretches of at least one pass matter: an empty one is the next step's. -/
theorem State.NotBegun.leadsTo_of_passes {s t : State} {samples : List Bool} (hs : s.NotBegun samples) {a : Word}
    (h : ∀ n, LeadsTo samples (putsLoop (n + 1) a s) t) (n : Nat) : LeadsTo samples (putsLoop n a s) t := by
  cases n with
  | zero => exact .of_step (hs.inPuts a) (hs.step_goOn a) (h 65535)
  | succ n => exact h n

/-- Where the unbounded loop exits, any stretch of it goes on to the exit. -/
theorem PutsExits.leadsTo {s t : State} {a : Word} (h : PutsExits s a t) {samples : List Bool}
    (hs : s.NotBegun samples) (n : Nat) : LeadsTo samples (putsLoop n a s) t := by
  induction h generalizing n with
  | zero hread =>
    refine hs.leadsTo_of_passes (fun n => ?_) n
    rw [putsLoop_exit hread]
    exact .refl _ _
  | pass hread _ ih =>
    refine hs.leadsTo_of_passes (fun n => ?_) n
    rw [putsLoop_goOn hread]
    exact ih (hs.afterRead _) n

/-- Where the unbounded loop does not exit, a stretch of it writes one byte a cell and goes on. -/
theorem putsLoop_of_not_exits {s : State} {a : Word} (h : ¬∃ t, PutsExits s a t) {samples : List Bool}
    (hs : s.NotBegun samples) (n : Nat) :
    ∃ u, putsLoop n a s = u.setWaiting (some (.puts (a + BitVec.ofNat 16 n))) ∧
      (¬∃ t, PutsExits u (a + BitVec.ofNat 16 n) t) ∧ u.NotBegun samples ∧
      u.consoleOut.length = s.consoleOut.length + n := by
  induction n generalizing s a with
  | zero => exact ⟨s, by simp [putsLoop], by simpa using h, hs, rfl⟩
  | succ n ih =>
    have hread : (s.memRead a).1 ≠ 0#16 := fun hzero => h ⟨_, .zero hzero⟩
    obtain ⟨u, hloop, hnot, hu, hlen⟩ := ih (fun ⟨t, ht⟩ => h ⟨t, .pass hread ht⟩) (hs.afterRead a)
    have haddr : a + 1#16 + BitVec.ofNat 16 n = a + BitVec.ofNat 16 (n + 1) := by
      rw [BitVec.add_assoc, BitVec.ofNat_add_ofNat, Nat.add_comm]
    rw [haddr] at hloop hnot
    have hbyte (b : Byte) : ((s.memRead a).2.consoleWrite b).consoleOut.length = s.consoleOut.length + 1 := by simp
    exact ⟨u, (putsLoop_goOn hread n).trans hloop, hnot, hu, by rw [hlen, hbyte, Nat.add_assoc, Nat.add_comm 1 n]⟩

/-- Once around memory it is at `a` again. -/
theorem puts_of_not_exits {s : State} {a : Word} (h : ¬∃ t, PutsExits s a t) {samples : List Bool}
    (hs : s.NotBegun samples) :
    ∃ u, s.puts a = u.setWaiting (some (.puts a)) ∧ (¬∃ t, PutsExits u a t) ∧ u.NotBegun samples ∧
      u.consoleOut.length = s.consoleOut.length + 65536 := by
  have haround := putsLoop_of_not_exits h hs Config.memCells
  have haddr : a + BitVec.ofNat 16 Config.memCells = a := BitVec.add_zero a
  rwa [haddr] at haround

/-- So such a PUTS is in the same place after any number of steps, and each wrote as many bytes as there are cells. -/
theorem run_puts_of_not_exits {s : State} {a : Word} (h : ¬∃ t, PutsExits s a t) {samples : List Bool}
    (hs : s.NotBegun samples) (n : Nat) :
    ∃ v, Host.Core.run core n (s.puts a) = .next v ∧ v.InPuts a samples ∧
      v.consoleOut.length = s.consoleOut.length + 65536 * (n + 1) := by
  induction n generalizing s with
  | zero =>
    obtain ⟨u, hputs, -, hu, hlen⟩ := puts_of_not_exits h hs
    exact ⟨_, congrArg _ hputs, hu.inPuts a, hlen⟩
  | succ n ih =>
    obtain ⟨u, hputs, hnot, hu, hlen⟩ := puts_of_not_exits h hs
    obtain ⟨v, hv, hin, hlen'⟩ := ih hnot hu
    refine ⟨v, ?_, hin, by rw [hlen', hlen]; omega⟩
    rw [hputs, ← hv]
    exact run_succ_of_next core n _ _ (hu.step_goOn a)

/-- Settles O31: where the loop exits, the steps lead there (`PutsExits.leadsTo`); where it does not, they go round
memory (`run_puts_of_not_exits`). -/
theorem putsIsTheLoopOfItsRule : Obligations.PutsIsTheLoopOfItsRule := by
  intro s hrun hw
  have hs := s.link_notBegun hrun hw
  refine ⟨_, rfl, fun t ht => ?_, fun hnot m => ?_⟩
  · obtain ⟨n, hn, hbefore⟩ := ht.leadsTo hs Config.memCells
    obtain ⟨hrun', hw', hsamples⟩ := ht.notBegun hs
    exact ⟨n, hn, hrun', hw', hsamples, hbefore⟩
  · obtain ⟨v, hv, hin, -⟩ := run_puts_of_not_exits hnot hs m
    exact ⟨v, _, hv, hin⟩

/-! ### Memory without a zero cell (44_trap R133, U14) -/

/-- No read yields zero, now or after any reads and console writes: the cells are not zero, and a key is pending at each
poll, itself not zero. -/
structure State.NeverZero (s : State) : Prop where
  memory : s.mem.wf
  cells : ∀ a, a ≠ Config.kbsr → s.cell a ≠ 0#16
  pending : ∀ c ∈ s.consoleIn, c ≠ 0#8
  batches : ∀ k, (s.arrivals.drop k).head ≠ [] ∧ ∀ c ∈ (s.arrivals.drop k).head, c ≠ 0#8

/-- A key is pending at a poll. -/
theorem State.NeverZero.incoming {s : State} (hs : s.NeverZero) :
    ∃ c cs, s.incoming = c :: cs ∧ c ≠ 0#8 ∧ ∀ d ∈ cs, d ≠ 0#8 := by
  obtain ⟨hne, hbatch⟩ := hs.batches 0
  have hall : ∀ c ∈ s.incoming, c ≠ 0#8 := fun c hc =>
    (List.mem_append.1 hc).elim (hs.pending c) (hbatch c)
  rcases s.incoming_cases with hi | ⟨c, cs, hi⟩
  · obtain ⟨-, hhead⟩ := List.append_eq_nil_iff.1 hi
    exact absurd hhead hne
  · rw [hi] at hall
    exact ⟨c, cs, hi, hall c List.mem_cons_self, fun d hd => hall d (List.mem_cons_of_mem _ hd)⟩

theorem zextByte_ne_zero {b : Byte} (h : b ≠ 0#8) : zextByte b ≠ 0#16 := by
  intro hz
  apply h
  apply BitVec.eq_of_toNat_eq
  rw [← toNat_zextByte, hz]
  rfl

theorem State.NeverZero.memRead {s : State} (hs : s.NeverZero) (a : Word) : (s.memRead a).1 ≠ 0#16 := by
  by_cases ha : a = Config.kbsr
  · obtain ⟨c, cs, hi, -⟩ := hs.incoming
    rw [ha, State.memRead_kbsr hs.memory, if_neg (by simp [hi])]
    decide
  · rw [((State.memRead_readsCell hs.memory a).plain ha).1]
    exact hs.cells a ha

theorem State.NeverZero.afterRead {s : State} (hs : s.NeverZero) (a : Word) : (s.afterRead a).NeverZero := by
  by_cases ha : a = Config.kbsr
  · subst ha
    rw [State.afterRead_kbsr]
    obtain ⟨c, cs, hi, hc, hcs⟩ := hs.incoming
    refine ⟨State.kbdPoll_wf hs.memory, fun b hb => ?_, by simpa [hi] using hcs, fun k => ?_⟩
    · rw [State.kbdPoll_cell_ready hs.memory hi, if_neg hb]
      split
      · exact zextByte_ne_zero hc
      · exact hs.cells b hb
    · rw [State.kbdPoll_arrivals]
      exact hs.batches (k + 1)
  · rwa [State.afterRead_plain s ha]

/-- Then the loop of PUTS does not exit. -/
theorem State.NeverZero.not_putsExits {s t : State} {a : Word} (hs : s.NeverZero) : ¬PutsExits s a t := by
  intro h
  induction h with
  | zero hzero => exact hs.memRead _ hzero
  | pass _ _ ih =>
    obtain ⟨hmem, hcells, hpending, hbatches⟩ := hs.afterRead _
    exact ih ⟨hmem, hcells, hpending, hbatches⟩

/-- Settles O32: the loop never exits, so each step goes once around memory (`run_puts_of_not_exits`). -/
theorem putsWithoutATerminatorNeverEnds : Obligations.PutsWithoutATerminatorNeverEnds := by
  intro s hrun hw hmem hcells hpending hbatches
  have hnever : s.link.NeverZero := ⟨hmem, hcells, hpending, hbatches⟩
  have hnot : ¬∃ t, PutsExits s.link (s.reg .r0) t := fun ⟨_, ht⟩ => hnever.not_putsExits ht
  refine ⟨_, rfl, fun n => ?_⟩
  obtain ⟨v, hv, ⟨hrun', hw', hsamples⟩, hlen⟩ := run_puts_of_not_exits hnot (s.link_notBegun hrun hw) n
  exact ⟨v, hv, hrun', hw', hsamples, hlen⟩

end Sys2Proof.Machine

/-! ## RTI and RES (45_reserved)

Both take the one exception of the machine, so `State.raiseUnsupported_stops` says for both what is recorded and what is
left alone; their words are encodings, which decode to what they encode (`decodeInvertsEncode`). -/

namespace Sys2Proof.Machine

/-- Taking UnsupportedInstruction stops the machine with the opcode, the word and the address it was fetched from, and
changes nothing else (45_reserved R152). -/
theorem State.raiseUnsupported_stops (s : State) (op : BitVec 4) (w : Word) :
    let t := s.raiseUnsupported op w
    t.run = .stopped ∧ t.cause = some (.unsupportedInstruction op w (s.pc - 1#16)) ∧ t.regs = s.regs ∧ t.pc = s.pc ∧
      t.cond = s.cond ∧ t.mem = s.mem ∧ SameInput s t ∧ SameOutput s t ∧ t.waiting = s.waiting ∧ SameLaunch s t := by
  simp [SameInput, SameOutput, SameLaunch]

/-- Settles O39: the word is the encoding of RTI, and RTI takes UnsupportedInstruction with opcode 1000 and that word. -/
theorem rtiTakesUnsupportedInstruction : Obligations.RtiTakesUnsupportedInstruction :=
  fun low s => ⟨decodeInvertsEncode (.rti low) rfl, _, rfl, s.raiseUnsupported_stops _ _⟩

/-- Settles O40: the word is the encoding of RES, and RES takes UnsupportedInstruction with opcode 1101 and that word. -/
theorem resTakesUnsupportedInstruction : Obligations.ResTakesUnsupportedInstruction :=
  fun low s => ⟨decodeInvertsEncode (.res low) rfl, _, rfl, s.raiseUnsupported_stops _ _⟩

end Sys2Proof.Machine

/-! ## Exceptions, the stop request and waits (60_exceptions)

Each statement is about one branch of a step: the fetch of a word of opcode 1000 or 1101, which takes
UnsupportedInstruction with that very word (`exec_of_unsupported_opcode`); the sample of the stop request; the begun
step, which goes on by `State.resume`. -/

namespace Sys2Proof

/-- Where the decoder reads every bit, encoding gives back the word. -/
theorem encode_decode_of_reads_all {w : Word} (h : (decode w).readBits = 0xFFFF#16) : encode (decode w) = w := by
  have hw := encode_decode_readBits w
  rwa [h, show 0xFFFF#16 = BitVec.allOnes 16 from rfl, BitVec.and_allOnes, BitVec.and_allOnes] at hw

end Sys2Proof

namespace Sys2Proof.Machine

/-! ### UnsupportedInstruction (60_exceptions R160, R164) -/

/-- A word of opcode 1000 or 1101 takes UnsupportedInstruction with its own opcode and itself (45_reserved R152). -/
theorem exec_of_unsupported_opcode {w : Word} (h : opcodeBits w = 0x8#4 ∨ opcodeBits w = 0xD#4) (s : State) :
    exec (decode w) s = .next (s.raiseUnsupported (opcodeBits w) w) := by
  have hword := encode_decode_of_reads_all (w := w)
  rcases h with hop | hop
  · rw [decode_of_rti hop] at hword ⊢
    rw [hop]
    exact congrArg (fun v => Host.Outcome.next (s.raiseUnsupported 0x8#4 v)) (hword rfl)
  · rw [decode_of_res hop] at hword ⊢
    rw [hop]
    exact congrArg (fun v => Host.Outcome.next (s.raiseUnsupported 0xD#4 v)) (hword rfl)

/-- Settles O41: the fetched word takes UnsupportedInstruction at the incremented `pc`, whose predecessor is the address
of the fetch; the fetch itself changes memory and input only. -/
theorem unsupportedWordIsRecordedWhole : Obligations.UnsupportedWordIsRecordedWhole := by
  intro s w u htop ha _ hfetch hop
  have hstep := stepRunsTheDecodedInstruction s _ htop ha rfl
  have hframe := (s.afterSample.memRead_sameButMemoryAndInput s.pc).frame
  rw [hfetch] at hstep hframe
  obtain ⟨-, hw⟩ := htop
  obtain ⟨hregs, -, hcond, hout, ⟨-, -, hwait⟩, -, hprompt⟩ := hframe
  have haddr : s.pc + 1#16 - 1#16 = s.pc := BitVec.add_sub_cancel s.pc 1#16
  exact ⟨_, hstep.trans (exec_of_unsupported_opcode hop _), rfl,
    congrArg (fun addr => some (StopCause.unsupportedInstruction (opcodeBits w) w addr)) haddr, rfl, hregs, hcond, rfl,
    ⟨rfl, rfl⟩, hout, hwait.trans hw, hprompt⟩

/-! ### The stop request (60_exceptions R167) -/

/-- Settles O10: the branch of a step that stops before the fetch; and a begun step changes neither the run state nor
the stop samples. -/
theorem stopRequestIsSampledOnlyAtTheTop : Obligations.StopRequestIsSampledOnlyAtTheTop := by
  refine ⟨?_, fun s w hrun hw => ?_⟩
  · rintro s ⟨hrun, hw⟩ ha
    exact ⟨_, step_of_stopAsserted hrun hw ha, rfl, rfl, rfl, rfl, rfl, hw, rfl, ⟨rfl, rfl⟩, ⟨rfl, rfl⟩, rfl⟩
  · obtain ⟨-, -, hrun', -, hsamples, -⟩ := s.resume_same w
    exact ⟨_, step_of_waiting hrun hw, hrun'.trans hrun, hsamples⟩

/-! ### Waiting in ConsoleRead (60_exceptions R173) -/

/-- A GETC or IN tried again without a character waits on as it was. -/
theorem State.resume_empty {s : State} {w : PendingStep} (hw : s.waiting = some w) (hread : w = .getc ∨ w = .inn)
    (hi : s.incoming = []) : s.resume w = s.setInput [] s.arrivals.tail := by
  have hresume : s.resume w = (s.setInput [] s.arrivals.tail).setWaiting (some w) := by
    rcases hread with rfl | rfl
    · exact State.getcRead_empty hi
    · exact State.inRead_empty hi
  rw [hresume, ← hw]
  rfl

/-- A GETC or IN tried again with a character completes; the two differ in the echo only. -/
theorem State.resume_ready {s : State} {w : PendingStep} (hread : w = .getc ∨ w = .inn) {c : Byte} {cs : List Byte}
    (hi : s.incoming = c :: cs) :
    s.resume w = (State.setReg { s.setInput cs s.arrivals.tail with
      consoleOut := if w = .inn then s.consoleOut ++ [c] else s.consoleOut } .r0 (zextByte c)).setWaiting none := by
  rcases hread with rfl | rfl
  · exact State.getcRead_ready hi
  · exact State.inRead_ready hi

/-- Settles O57: the two ways a begun GETC or IN goes on. -/
theorem waitEndsWithACharacter : Obligations.WaitEndsWithACharacter := by
  intro s w hrun hw hread
  have hstep := step_of_waiting hrun hw
  refine ⟨fun hi => hstep.trans (congrArg _ (State.resume_empty hw hread hi)), fun c cs hi => ?_⟩
  have hregs := s.resume_sameRegsBut w
  rw [State.resume_ready hread hi] at hstep hregs
  exact ⟨_, hstep, rfl, toNat_zextByte c, rfl, rfl, rfl, hregs, rfl, rfl, hrun, rfl, rfl, rfl, rfl, rfl⟩

end Sys2Proof.Machine

/-! ## Reset and the loader (70_reset_and_hazards)

`State.loadWords_cell` says once what loading words does to every cell, with a cell's distance from the first address
taken modulo 65,536. It asks only that there be no more words than cells, so that the later words do not come back to
the first address. Where the image ends within the address space, that law is what R183 says of the cells from the
origin on. -/

namespace Sys2Proof.Machine

/-! ### The loader (70_reset R183) -/

theorem State.loadWords_wf {s : State} (hs : s.mem.wf) (a : Word) (ws : List Word) : (s.loadWords a ws).mem.wf := by
  induction ws generalizing s a with
  | nil => exact hs
  | cons w ws ih => exact ih (State.setCell_wf hs a w) (a + 1#16)

/-- Loading words changes nothing but memory. -/
theorem State.loadWords_frame (s : State) (a : Word) (ws : List Word) : { s.loadWords a ws with mem := s.mem } = s := by
  induction ws generalizing s a with
  | nil => rfl
  | cons w ws ih => exact congrArg (fun t : State => { t with mem := s.mem }) (ih (s.setCell a w) (a + 1#16))

/-- Past the first of the words, a cell is one nearer to the next address. -/
theorem toNat_sub_of_ne {i a : Word} (h : i ≠ a) : (i - a).toNat = (i - (a + 1#16)).toNat + 1 := by
  bv_omega

/-- What loading words does, seen through the reads of all cells. -/
theorem State.loadWords_cell {s : State} (hs : s.mem.wf) {a : Word} {ws : List Word} (hlen : ws.length ≤ 65536)
    (i : Word) : (s.loadWords a ws).cell i = ws[(i - a).toNat]?.getD (s.cell i) := by
  induction ws generalizing s a with
  | nil => rfl
  | cons w ws ih =>
    rw [List.length_cons] at hlen
    rw [State.loadWords, ih (State.setCell_wf hs a w) (by omega), State.setCell_cell hs]
    by_cases hi : i = a
    · subst hi
      -- the first address is 65535 cells past the next one, and there are at most 65535 later words
      have hlast : ws[65535]? = none := List.getElem?_eq_none (by omega)
      simp [hlast]
    · simp [hi, toNat_sub_of_ne hi]

/-- Where an image ends within the address space, the words at distances modulo 65,536 are the words at the cells from
the origin on. -/
theorem getElem?_sub_of_fits {ws : List Word} {origin : Word} (hfits : origin.toNat + ws.length ≤ 65536) (a v : Word) :
    ws[(a - origin).toNat]?.getD v =
      if h : origin.toNat ≤ a.toNat ∧ a.toNat - origin.toNat < ws.length
      then ws[a.toNat - origin.toNat] else v := by
  by_cases hle : origin.toNat ≤ a.toNat
  · rw [BitVec.toNat_sub_of_le hle]
    by_cases hlt : a.toNat - origin.toNat < ws.length
    · simp [hle, hlt]
    · simp [hlt]
  · have hpast : ws.length ≤ (a - origin).toNat := by bv_omega
    rw [List.getElem?_eq_none hpast, dif_neg fun h => hle h.1, Option.getD_none]

/-- Settles O59: an image that fits is loaded word by word, and one that does not is rejected. -/
theorem loaderPopulatesTheImage : Obligations.LoaderPopulatesTheImage := by
  refine fun s origin words hs => ⟨fun hlong => if_neg hlong.not_ge, fun hfits => ?_⟩
  have hcell (a : Word) := State.loadWords_cell hs (a := origin) (ws := words) (by omega) a
  exact ⟨s.loadWords origin words, if_pos hfits, State.loadWords_wf hs origin words, s.loadWords_frame origin words,
    fun a => (hcell a).trans (getElem?_sub_of_fits hfits a _)⟩

/-! ### Reset (70_reset R180, R181) -/

/-- A machine launched with canonical memory is Running, with nothing flushed. -/
theorem State.launch_runs (start : Word) (regs : RegFile) {mem : Memory} (hmem : mem.wf) (prompt input : List Byte)
    (arrivals : Arrivals) (stops : List Bool) : (State.launch start regs mem prompt input arrivals stops).Runs :=
  ⟨hmem, rfl, rfl, le_rfl⟩

/-- Settles O49: a launched machine is Running, and reset is the launch with the empty memory. -/
theorem launchMeetsTheInvariant : Obligations.LaunchMeetsTheInvariant :=
  ⟨(State.launch_runs _ _ reset_mem_wf _ _ _ _).inv,
    fun _ _ _ _ _ _ _ hmem => (State.launch_runs _ _ hmem _ _ _ _).inv⟩

/-- With ZRO, the flag reset leaves, BR is taken exactly on its z bit (10_state R31). -/
theorem branchTaken_zro (n z p : Bool) : branchTaken n z p .zro = z := by
  rw [Bool.eq_iff_iff, branchTaken_iff]
  simp

/-- Settles O58: the values are those of `State.launch`, and the test of BR is `branchTaken_zro`. -/
theorem resetLeavesTheStatedValues : Obligations.ResetLeavesTheStatedValues :=
  ⟨fun _ _ _ _ _ _ _ => ⟨rfl, rfl, rfl, rfl, rfl, fun _ => rfl, fun _ => rfl, branchTaken_zro⟩, rfl, rfl, rfl, rfl⟩

end Sys2Proof.Machine
